-- ==== Sys2Proof/Word.lean ====
section
/-! DEFINITION. The two word types of the block: the stream byte and the 16-bit operand value (00_scope R7, R9). -/

namespace Sys2Proof

/-- One stream element, and the opcode: `BYTE` = 8 bits, unsigned unless a rule says `sint8` (R7, R9). -/
abbrev Byte := BitVec 8

/-- A 16-bit operand value, bits 15..0, unsigned (R9, R25). -/
abbrev Word := BitVec 16

end Sys2Proof
end

