-- ==== Sys2Proof/Config.lean ====
section
/-! DEFINITION. The parameters of 00_scope R7 that are plain numbers. `OPCODE_TABLE`, the one parameter with content,
is Decode.lean's `opcodeTable`. Nothing in this hardware is left undefined, so there is no free value here. -/

namespace Sys2Proof.Config

/-- `TABLE_SLOTS`: "exactly 256 slots" (R7, R20). -/
def tableSlots : Nat := 256

/-- `N_OPERATIONS` (R7; 92 D5). -/
def nOperations : Nat := 56

/-- `N_MODES` (R7, R24). -/
def nModes : Nat := 13

/-- `MAX_SIZE`: the longest instruction in bytes (R7, R80). -/
def maxSize : Nat := 3

/-- `WINDOW_LANES`: the byte lanes of the window port (R7, R31). -/
def windowLanes : Nat := 3

/-- The default of the OPEN parameter `OFFW`, the width in bits of the offset register (R7; 92 D16). -/
def defaultOffw : Nat := 16

end Sys2Proof.Config
end

