-- ==== Sys2Proof/Syntax.lean ====
section
/-! DEFINITION. The data the block produces (10_state R23 to R26), and `Instr`: one constructor per row of
spec/opcode_table.json, which carries the row's operand payload. -/

namespace Sys2Proof

/-- `Operation`: identifies the mnemonic only, the mode is carried separately (R23; 90 C3). In the order of the
ids of R23. -/
inductive Operation where
  | adc | and | asl | bcc | bcs | beq | bit | bmi
  | bne | bpl | brk | bvc | bvs | clc | cld | cli
  | clv | cmp | cpx | cpy | dec | dex | dey | eor
  | inc | inx | iny | jmp | jsr | lda | ldx | ldy
  | lsr | nop | ora | pha | php | pla | plp | rol
  | ror | rti | rts | sbc | sec | sed | sei | sta
  | stx | sty | tax | tay | tsx | txa | txs | tya
  deriving DecidableEq, Repr

/-- `AddressingMode`: the 13 modes, in the order of the ids of R24. -/
inductive AddressingMode where
  | absolute | absoluteX | absoluteY | accumulator | immediate | implied | indexedIndirect
  | indirect | indirectIndexed | relative | zeroPage | zeroPageX | zeroPageY
  deriving DecidableEq, Repr

/-- `Operand`: one variant per addressing mode with the payload's width and signedness (R25). The signed payload of
`relative` is an integer; its range -128..127 is `Operand.wf` (log 10). -/
inductive Operand where
  | absolute (v : Word)
  | absoluteX (v : Word)
  | absoluteY (v : Word)
  | accumulator
  | immediate (v : Byte)
  | implied
  | indexedIndirect (v : Byte)
  | indirect (v : Word)
  | indirectIndexed (v : Byte)
  | relative (s : Int)
  | zeroPage (v : Byte)
  | zeroPageX (v : Byte)
  | zeroPageY (v : Byte)
  deriving DecidableEq, Repr

/-- The components of an Instruction, the triple of R26, with nothing demanded of them. The Instruction itself, which carries
both invariants of R26 as proofs, is Decode.lean's `InstructionOf`. -/
structure Triple where
  operation : Operation
  operand : Operand
  size : Nat
  deriving DecidableEq, Repr

/-- The 151 instructions of the opcode table R100, one constructor per row: the mnemonic and the abbreviation R84
gives the mode (no suffix for Implied), with the operand payload. Each line cites the row's rule and opcode. -/
inductive Instr where
  /-- R200: LDA Immediate, opcode 0xA9. -/
  | ldaImm (v : Byte)
  /-- R200: LDA ZeroPage, opcode 0xA5. -/
  | ldaZp (v : Byte)
  /-- R200: LDA ZeroPageX, opcode 0xB5. -/
  | ldaZpx (v : Byte)
  /-- R200: LDA Absolute, opcode 0xAD. -/
  | ldaAbs (a : Word)
  /-- R200: LDA AbsoluteX, opcode 0xBD. -/
  | ldaAbx (a : Word)
  /-- R200: LDA AbsoluteY, opcode 0xB9. -/
  | ldaAby (a : Word)
  /-- R200: LDA IndexedIndirect, opcode 0xA1. -/
  | ldaIzx (v : Byte)
  /-- R200: LDA IndirectIndexed, opcode 0xB1. -/
  | ldaIzy (v : Byte)
  /-- R201: LDX Immediate, opcode 0xA2. -/
  | ldxImm (v : Byte)
  /-- R201: LDX ZeroPage, opcode 0xA6. -/
  | ldxZp (v : Byte)
  /-- R201: LDX ZeroPageY, opcode 0xB6. -/
  | ldxZpy (v : Byte)
  /-- R201: LDX Absolute, opcode 0xAE. -/
  | ldxAbs (a : Word)
  /-- R201: LDX AbsoluteY, opcode 0xBE. -/
  | ldxAby (a : Word)
  /-- R202: LDY Immediate, opcode 0xA0. -/
  | ldyImm (v : Byte)
  /-- R202: LDY ZeroPage, opcode 0xA4. -/
  | ldyZp (v : Byte)
  /-- R202: LDY ZeroPageX, opcode 0xB4. -/
  | ldyZpx (v : Byte)
  /-- R202: LDY Absolute, opcode 0xAC. -/
  | ldyAbs (a : Word)
  /-- R202: LDY AbsoluteX, opcode 0xBC. -/
  | ldyAbx (a : Word)
  /-- R203: STA ZeroPage, opcode 0x85. -/
  | staZp (v : Byte)
  /-- R203: STA ZeroPageX, opcode 0x95. -/
  | staZpx (v : Byte)
  /-- R203: STA Absolute, opcode 0x8D. -/
  | staAbs (a : Word)
  /-- R203: STA AbsoluteX, opcode 0x9D. -/
  | staAbx (a : Word)
  /-- R203: STA AbsoluteY, opcode 0x99. -/
  | staAby (a : Word)
  /-- R203: STA IndexedIndirect, opcode 0x81. -/
  | staIzx (v : Byte)
  /-- R203: STA IndirectIndexed, opcode 0x91. -/
  | staIzy (v : Byte)
  /-- R204: STX ZeroPage, opcode 0x86. -/
  | stxZp (v : Byte)
  /-- R204: STX ZeroPageY, opcode 0x96. -/
  | stxZpy (v : Byte)
  /-- R204: STX Absolute, opcode 0x8E. -/
  | stxAbs (a : Word)
  /-- R205: STY ZeroPage, opcode 0x84. -/
  | styZp (v : Byte)
  /-- R205: STY ZeroPageX, opcode 0x94. -/
  | styZpx (v : Byte)
  /-- R205: STY Absolute, opcode 0x8C. -/
  | styAbs (a : Word)
  /-- R206: TAX Implied, opcode 0xAA. -/
  | tax
  /-- R207: TAY Implied, opcode 0xA8. -/
  | tay
  /-- R208: TSX Implied, opcode 0xBA. -/
  | tsx
  /-- R209: TXA Implied, opcode 0x8A. -/
  | txa
  /-- R210: TXS Implied, opcode 0x9A. -/
  | txs
  /-- R211: TYA Implied, opcode 0x98. -/
  | tya
  /-- R212: PHA Implied, opcode 0x48. -/
  | pha
  /-- R213: PHP Implied, opcode 0x08. -/
  | php
  /-- R214: PLA Implied, opcode 0x68. -/
  | pla
  /-- R215: PLP Implied, opcode 0x28. -/
  | plp
  /-- R216: ADC Immediate, opcode 0x69. -/
  | adcImm (v : Byte)
  /-- R216: ADC ZeroPage, opcode 0x65. -/
  | adcZp (v : Byte)
  /-- R216: ADC ZeroPageX, opcode 0x75. -/
  | adcZpx (v : Byte)
  /-- R216: ADC Absolute, opcode 0x6D. -/
  | adcAbs (a : Word)
  /-- R216: ADC AbsoluteX, opcode 0x7D. -/
  | adcAbx (a : Word)
  /-- R216: ADC AbsoluteY, opcode 0x79. -/
  | adcAby (a : Word)
  /-- R216: ADC IndexedIndirect, opcode 0x61. -/
  | adcIzx (v : Byte)
  /-- R216: ADC IndirectIndexed, opcode 0x71. -/
  | adcIzy (v : Byte)
  /-- R217: SBC Immediate, opcode 0xE9. -/
  | sbcImm (v : Byte)
  /-- R217: SBC ZeroPage, opcode 0xE5. -/
  | sbcZp (v : Byte)
  /-- R217: SBC ZeroPageX, opcode 0xF5. -/
  | sbcZpx (v : Byte)
  /-- R217: SBC Absolute, opcode 0xED. -/
  | sbcAbs (a : Word)
  /-- R217: SBC AbsoluteX, opcode 0xFD. -/
  | sbcAbx (a : Word)
  /-- R217: SBC AbsoluteY, opcode 0xF9. -/
  | sbcAby (a : Word)
  /-- R217: SBC IndexedIndirect, opcode 0xE1. -/
  | sbcIzx (v : Byte)
  /-- R217: SBC IndirectIndexed, opcode 0xF1. -/
  | sbcIzy (v : Byte)
  /-- R218: AND Immediate, opcode 0x29. -/
  | andImm (v : Byte)
  /-- R218: AND ZeroPage, opcode 0x25. -/
  | andZp (v : Byte)
  /-- R218: AND ZeroPageX, opcode 0x35. -/
  | andZpx (v : Byte)
  /-- R218: AND Absolute, opcode 0x2D. -/
  | andAbs (a : Word)
  /-- R218: AND AbsoluteX, opcode 0x3D. -/
  | andAbx (a : Word)
  /-- R218: AND AbsoluteY, opcode 0x39. -/
  | andAby (a : Word)
  /-- R218: AND IndexedIndirect, opcode 0x21. -/
  | andIzx (v : Byte)
  /-- R218: AND IndirectIndexed, opcode 0x31. -/
  | andIzy (v : Byte)
  /-- R219: ORA Immediate, opcode 0x09. -/
  | oraImm (v : Byte)
  /-- R219: ORA ZeroPage, opcode 0x05. -/
  | oraZp (v : Byte)
  /-- R219: ORA ZeroPageX, opcode 0x15. -/
  | oraZpx (v : Byte)
  /-- R219: ORA Absolute, opcode 0x0D. -/
  | oraAbs (a : Word)
  /-- R219: ORA AbsoluteX, opcode 0x1D. -/
  | oraAbx (a : Word)
  /-- R219: ORA AbsoluteY, opcode 0x19. -/
  | oraAby (a : Word)
  /-- R219: ORA IndexedIndirect, opcode 0x01. -/
  | oraIzx (v : Byte)
  /-- R219: ORA IndirectIndexed, opcode 0x11. -/
  | oraIzy (v : Byte)
  /-- R220: EOR Immediate, opcode 0x49. -/
  | eorImm (v : Byte)
  /-- R220: EOR ZeroPage, opcode 0x45. -/
  | eorZp (v : Byte)
  /-- R220: EOR ZeroPageX, opcode 0x55. -/
  | eorZpx (v : Byte)
  /-- R220: EOR Absolute, opcode 0x4D. -/
  | eorAbs (a : Word)
  /-- R220: EOR AbsoluteX, opcode 0x5D. -/
  | eorAbx (a : Word)
  /-- R220: EOR AbsoluteY, opcode 0x59. -/
  | eorAby (a : Word)
  /-- R220: EOR IndexedIndirect, opcode 0x41. -/
  | eorIzx (v : Byte)
  /-- R220: EOR IndirectIndexed, opcode 0x51. -/
  | eorIzy (v : Byte)
  /-- R221: CMP Immediate, opcode 0xC9. -/
  | cmpImm (v : Byte)
  /-- R221: CMP ZeroPage, opcode 0xC5. -/
  | cmpZp (v : Byte)
  /-- R221: CMP ZeroPageX, opcode 0xD5. -/
  | cmpZpx (v : Byte)
  /-- R221: CMP Absolute, opcode 0xCD. -/
  | cmpAbs (a : Word)
  /-- R221: CMP AbsoluteX, opcode 0xDD. -/
  | cmpAbx (a : Word)
  /-- R221: CMP AbsoluteY, opcode 0xD9. -/
  | cmpAby (a : Word)
  /-- R221: CMP IndexedIndirect, opcode 0xC1. -/
  | cmpIzx (v : Byte)
  /-- R221: CMP IndirectIndexed, opcode 0xD1. -/
  | cmpIzy (v : Byte)
  /-- R222: CPX Immediate, opcode 0xE0. -/
  | cpxImm (v : Byte)
  /-- R222: CPX ZeroPage, opcode 0xE4. -/
  | cpxZp (v : Byte)
  /-- R222: CPX Absolute, opcode 0xEC. -/
  | cpxAbs (a : Word)
  /-- R223: CPY Immediate, opcode 0xC0. -/
  | cpyImm (v : Byte)
  /-- R223: CPY ZeroPage, opcode 0xC4. -/
  | cpyZp (v : Byte)
  /-- R223: CPY Absolute, opcode 0xCC. -/
  | cpyAbs (a : Word)
  /-- R224: BIT ZeroPage, opcode 0x24. -/
  | bitZp (v : Byte)
  /-- R224: BIT Absolute, opcode 0x2C. -/
  | bitAbs (a : Word)
  /-- R225: ASL ZeroPage, opcode 0x06. -/
  | aslZp (v : Byte)
  /-- R225: ASL ZeroPageX, opcode 0x16. -/
  | aslZpx (v : Byte)
  /-- R225: ASL Absolute, opcode 0x0E. -/
  | aslAbs (a : Word)
  /-- R225: ASL AbsoluteX, opcode 0x1E. -/
  | aslAbx (a : Word)
  /-- R225: ASL Accumulator, opcode 0x0A. -/
  | aslAcc
  /-- R226: LSR ZeroPage, opcode 0x46. -/
  | lsrZp (v : Byte)
  /-- R226: LSR ZeroPageX, opcode 0x56. -/
  | lsrZpx (v : Byte)
  /-- R226: LSR Absolute, opcode 0x4E. -/
  | lsrAbs (a : Word)
  /-- R226: LSR AbsoluteX, opcode 0x5E. -/
  | lsrAbx (a : Word)
  /-- R226: LSR Accumulator, opcode 0x4A. -/
  | lsrAcc
  /-- R227: ROL ZeroPage, opcode 0x26. -/
  | rolZp (v : Byte)
  /-- R227: ROL ZeroPageX, opcode 0x36. -/
  | rolZpx (v : Byte)
  /-- R227: ROL Absolute, opcode 0x2E. -/
  | rolAbs (a : Word)
  /-- R227: ROL AbsoluteX, opcode 0x3E. -/
  | rolAbx (a : Word)
  /-- R227: ROL Accumulator, opcode 0x2A. -/
  | rolAcc
  /-- R228: ROR ZeroPage, opcode 0x66. -/
  | rorZp (v : Byte)
  /-- R228: ROR ZeroPageX, opcode 0x76. -/
  | rorZpx (v : Byte)
  /-- R228: ROR Absolute, opcode 0x6E. -/
  | rorAbs (a : Word)
  /-- R228: ROR AbsoluteX, opcode 0x7E. -/
  | rorAbx (a : Word)
  /-- R228: ROR Accumulator, opcode 0x6A. -/
  | rorAcc
  /-- R229: INC ZeroPage, opcode 0xE6. -/
  | incZp (v : Byte)
  /-- R229: INC ZeroPageX, opcode 0xF6. -/
  | incZpx (v : Byte)
  /-- R229: INC Absolute, opcode 0xEE. -/
  | incAbs (a : Word)
  /-- R229: INC AbsoluteX, opcode 0xFE. -/
  | incAbx (a : Word)
  /-- R230: DEC ZeroPage, opcode 0xC6. -/
  | decZp (v : Byte)
  /-- R230: DEC ZeroPageX, opcode 0xD6. -/
  | decZpx (v : Byte)
  /-- R230: DEC Absolute, opcode 0xCE. -/
  | decAbs (a : Word)
  /-- R230: DEC AbsoluteX, opcode 0xDE. -/
  | decAbx (a : Word)
  /-- R231: INX Implied, opcode 0xE8. -/
  | inx
  /-- R232: INY Implied, opcode 0xC8. -/
  | iny
  /-- R233: DEX Implied, opcode 0xCA. -/
  | dex
  /-- R234: DEY Implied, opcode 0x88. -/
  | dey
  /-- R235: BCC Relative, opcode 0x90. -/
  | bccRel (k : Int)
  /-- R236: BCS Relative, opcode 0xB0. -/
  | bcsRel (k : Int)
  /-- R237: BEQ Relative, opcode 0xF0. -/
  | beqRel (k : Int)
  /-- R238: BMI Relative, opcode 0x30. -/
  | bmiRel (k : Int)
  /-- R239: BNE Relative, opcode 0xD0. -/
  | bneRel (k : Int)
  /-- R240: BPL Relative, opcode 0x10. -/
  | bplRel (k : Int)
  /-- R241: BVC Relative, opcode 0x50. -/
  | bvcRel (k : Int)
  /-- R242: BVS Relative, opcode 0x70. -/
  | bvsRel (k : Int)
  /-- R243: JMP Absolute, opcode 0x4C. -/
  | jmpAbs (a : Word)
  /-- R243: JMP Indirect, opcode 0x6C. -/
  | jmpInd (a : Word)
  /-- R244: JSR Absolute, opcode 0x20. -/
  | jsrAbs (a : Word)
  /-- R245: RTS Implied, opcode 0x60. -/
  | rts
  /-- R246: RTI Implied, opcode 0x40. -/
  | rti
  /-- R247: BRK Implied, opcode 0x00. -/
  | brk
  /-- R248: NOP Implied, opcode 0xEA. -/
  | nop
  /-- R249: CLC Implied, opcode 0x18. -/
  | clc
  /-- R250: CLD Implied, opcode 0xD8. -/
  | cld
  /-- R251: CLI Implied, opcode 0x58. -/
  | cli
  /-- R252: CLV Implied, opcode 0xB8. -/
  | clv
  /-- R253: SEC Implied, opcode 0x38. -/
  | sec
  /-- R254: SED Implied, opcode 0xF8. -/
  | sed
  /-- R255: SEI Implied, opcode 0x78. -/
  | sei
  deriving DecidableEq, Repr

end Sys2Proof
end

