-- ==== Sys2Proof/WellFormed.lean ====
section
/-! DEFINITION. The checks a term of the data types must pass to be one the block can produce (10_state R25, R26). -/

namespace Sys2Proof

/-- The payload of an operand lies in its range (R25): only `relative` can be outside, since the other payloads are
words of their own width. -/
def Operand.wf : Operand → Bool
  | .relative s => decide (-128 ≤ s ∧ s ≤ 127)
  | _ => true

/-- Bytes of stream an operand's payload takes: 2 for a 16-bit payload, 1 for an 8-bit payload, 0 for none (R25). -/
def Operand.payloadBytes : Operand → Nat
  | .absolute _ | .absoluteX _ | .absoluteY _ | .indirect _ => 2
  | .accumulator | .implied => 0
  | _ => 1

/-- The check of a bare triple: the payload's range (R25), and invariant (b) of R26, the size of its operand's mode, from
the payload's bytes. Invariant (a) needs a table: `TableMade` states it, and `InstructionOf` carries both. -/
def Triple.wf (i : Triple) : Bool :=
  i.operand.wf && decide (i.size = 1 + i.operand.payloadBytes)

/-- A branch offset is a signed 8-bit value (R25, R88). Every other constructor holds a word of its own width, or
nothing, so every term of it is well formed. -/
def Instr.wf : Instr → Bool
  | .bccRel k => (Operand.relative k).wf
  | .bcsRel k => (Operand.relative k).wf
  | .beqRel k => (Operand.relative k).wf
  | .bmiRel k => (Operand.relative k).wf
  | .bneRel k => (Operand.relative k).wf
  | .bplRel k => (Operand.relative k).wf
  | .bvcRel k => (Operand.relative k).wf
  | .bvsRel k => (Operand.relative k).wf
  | _ => true

end Sys2Proof
end

