-- ==== Sys2Proof/Decode.lean ====
section
/-! DEFINITION. The instruction-fetch decoder: the opcode dispatch table (R100), the operand-width router (R84), operand
assembly (R86 to R89), `decode` with its named reasons for absence (R146, R300), the decoder to `Instr`, and the
encoder. The functions named `…With` take the table as the parameter the spec makes it (R7, 92 D4). -/

namespace Sys2Proof

/-! ### Bytes and numbers (00_scope R9, R10) -/

/-- `sint8`: the two's-complement reading of a byte (R10). -/
def sint8 (b : Byte) : Int :=
  if b.toNat ≤ 127 then (b.toNat : Int) else (b.toNat : Int) - 256

/-- `byte_of`: the inverse of `sint8` on -128..127 (R10). -/
def byteOf (s : Int) : Byte :=
  if 0 ≤ s then BitVec.ofNat 8 s.toNat else BitVec.ofNat 8 (s + 256).toNat

/-- `{h, l}` of two operand bytes: `(byte1 << 8) | byte2`, high byte first (R56, R86). -/
def joinBytes (h l : Byte) : Word :=
  (h.setWidth 16 <<< 8) ||| l.setWidth 16

/-- The byte in bits 15..8 of a 16-bit value (R155). -/
def highByte (v : Word) : Byte := (v >>> 8).setWidth 8

/-- The byte in bits 7..0 of a 16-bit value (R155). -/
def lowByte (v : Word) : Byte := v.setWidth 8

/-! ### The operand-width router (30_encoding R84, 40_decode_operations R141) -/

/-- `width`: operand bytes of each mode. -/
def AddressingMode.width : AddressingMode → Nat
  | .absolute | .absoluteX | .absoluteY | .indirect => 2
  | .accumulator | .implied => 0
  | .immediate | .indexedIndirect | .indirectIndexed | .relative | .zeroPage | .zeroPageX | .zeroPageY => 1

/-- `size`: total bytes of an instruction of each mode. -/
def AddressingMode.size (m : AddressingMode) : Nat := 1 + m.width

/-- The tag of an operand: the mode whose name its variant has (R25, R26). -/
def Operand.mode : Operand → AddressingMode
  | .absolute _ => .absolute
  | .absoluteX _ => .absoluteX
  | .absoluteY _ => .absoluteY
  | .accumulator => .accumulator
  | .immediate _ => .immediate
  | .implied => .implied
  | .indexedIndirect _ => .indexedIndirect
  | .indirect _ => .indirect
  | .indirectIndexed _ => .indirectIndexed
  | .relative _ => .relative
  | .zeroPage _ => .zeroPage
  | .zeroPageX _ => .zeroPageX
  | .zeroPageY _ => .zeroPageY

/-! ### The opcode dispatch table (30_encoding R100; content from general knowledge, 93 G1, log 1) -/

/-- The content of a table: what a slot holds (R20). -/
abbrev Slot := Option (Operation × AddressingMode)

/-- Any content of the 256 slots: the parameter `OPCODE_TABLE` (R7, R20). -/
abbrev OpcodeTable := Byte → Slot

/-- Row `0_` of the matrix R100, columns `_0` to `_F`. -/
def opcodeRow0 : List Slot :=
  [some (.brk, .implied), some (.ora, .indexedIndirect), none, none,
   none, some (.ora, .zeroPage), some (.asl, .zeroPage), none,
   some (.php, .implied), some (.ora, .immediate), some (.asl, .accumulator), none,
   none, some (.ora, .absolute), some (.asl, .absolute), none]

/-- Row `1_` of the matrix R100, columns `_0` to `_F`. -/
def opcodeRow1 : List Slot :=
  [some (.bpl, .relative), some (.ora, .indirectIndexed), none, none,
   none, some (.ora, .zeroPageX), some (.asl, .zeroPageX), none,
   some (.clc, .implied), some (.ora, .absoluteY), none, none,
   none, some (.ora, .absoluteX), some (.asl, .absoluteX), none]

/-- Row `2_` of the matrix R100, columns `_0` to `_F`. -/
def opcodeRow2 : List Slot :=
  [some (.jsr, .absolute), some (.and, .indexedIndirect), none, none,
   some (.bit, .zeroPage), some (.and, .zeroPage), some (.rol, .zeroPage), none,
   some (.plp, .implied), some (.and, .immediate), some (.rol, .accumulator), none,
   some (.bit, .absolute), some (.and, .absolute), some (.rol, .absolute), none]

/-- Row `3_` of the matrix R100, columns `_0` to `_F`. -/
def opcodeRow3 : List Slot :=
  [some (.bmi, .relative), some (.and, .indirectIndexed), none, none,
   none, some (.and, .zeroPageX), some (.rol, .zeroPageX), none,
   some (.sec, .implied), some (.and, .absoluteY), none, none,
   none, some (.and, .absoluteX), some (.rol, .absoluteX), none]

/-- Row `4_` of the matrix R100, columns `_0` to `_F`. -/
def opcodeRow4 : List Slot :=
  [some (.rti, .implied), some (.eor, .indexedIndirect), none, none,
   none, some (.eor, .zeroPage), some (.lsr, .zeroPage), none,
   some (.pha, .implied), some (.eor, .immediate), some (.lsr, .accumulator), none,
   some (.jmp, .absolute), some (.eor, .absolute), some (.lsr, .absolute), none]

/-- Row `5_` of the matrix R100, columns `_0` to `_F`. -/
def opcodeRow5 : List Slot :=
  [some (.bvc, .relative), some (.eor, .indirectIndexed), none, none,
   none, some (.eor, .zeroPageX), some (.lsr, .zeroPageX), none,
   some (.cli, .implied), some (.eor, .absoluteY), none, none,
   none, some (.eor, .absoluteX), some (.lsr, .absoluteX), none]

/-- Row `6_` of the matrix R100, columns `_0` to `_F`. -/
def opcodeRow6 : List Slot :=
  [some (.rts, .implied), some (.adc, .indexedIndirect), none, none,
   none, some (.adc, .zeroPage), some (.ror, .zeroPage), none,
   some (.pla, .implied), some (.adc, .immediate), some (.ror, .accumulator), none,
   some (.jmp, .indirect), some (.adc, .absolute), some (.ror, .absolute), none]

/-- Row `7_` of the matrix R100, columns `_0` to `_F`. -/
def opcodeRow7 : List Slot :=
  [some (.bvs, .relative), some (.adc, .indirectIndexed), none, none,
   none, some (.adc, .zeroPageX), some (.ror, .zeroPageX), none,
   some (.sei, .implied), some (.adc, .absoluteY), none, none,
   none, some (.adc, .absoluteX), some (.ror, .absoluteX), none]

/-- Row `8_` of the matrix R100, columns `_0` to `_F`. -/
def opcodeRow8 : List Slot :=
  [none, some (.sta, .indexedIndirect), none, none,
   some (.sty, .zeroPage), some (.sta, .zeroPage), some (.stx, .zeroPage), none,
   some (.dey, .implied), none, some (.txa, .implied), none,
   some (.sty, .absolute), some (.sta, .absolute), some (.stx, .absolute), none]

/-- Row `9_` of the matrix R100, columns `_0` to `_F`. -/
def opcodeRow9 : List Slot :=
  [some (.bcc, .relative), some (.sta, .indirectIndexed), none, none,
   some (.sty, .zeroPageX), some (.sta, .zeroPageX), some (.stx, .zeroPageY), none,
   some (.tya, .implied), some (.sta, .absoluteY), some (.txs, .implied), none,
   none, some (.sta, .absoluteX), none, none]

/-- Row `A_` of the matrix R100, columns `_0` to `_F`. -/
def opcodeRowA : List Slot :=
  [some (.ldy, .immediate), some (.lda, .indexedIndirect), some (.ldx, .immediate), none,
   some (.ldy, .zeroPage), some (.lda, .zeroPage), some (.ldx, .zeroPage), none,
   some (.tay, .implied), some (.lda, .immediate), some (.tax, .implied), none,
   some (.ldy, .absolute), some (.lda, .absolute), some (.ldx, .absolute), none]

/-- Row `B_` of the matrix R100, columns `_0` to `_F`. -/
def opcodeRowB : List Slot :=
  [some (.bcs, .relative), some (.lda, .indirectIndexed), none, none,
   some (.ldy, .zeroPageX), some (.lda, .zeroPageX), some (.ldx, .zeroPageY), none,
   some (.clv, .implied), some (.lda, .absoluteY), some (.tsx, .implied), none,
   some (.ldy, .absoluteX), some (.lda, .absoluteX), some (.ldx, .absoluteY), none]

/-- Row `C_` of the matrix R100, columns `_0` to `_F`. -/
def opcodeRowC : List Slot :=
  [some (.cpy, .immediate), some (.cmp, .indexedIndirect), none, none,
   some (.cpy, .zeroPage), some (.cmp, .zeroPage), some (.dec, .zeroPage), none,
   some (.iny, .implied), some (.cmp, .immediate), some (.dex, .implied), none,
   some (.cpy, .absolute), some (.cmp, .absolute), some (.dec, .absolute), none]

/-- Row `D_` of the matrix R100, columns `_0` to `_F`. -/
def opcodeRowD : List Slot :=
  [some (.bne, .relative), some (.cmp, .indirectIndexed), none, none,
   none, some (.cmp, .zeroPageX), some (.dec, .zeroPageX), none,
   some (.cld, .implied), some (.cmp, .absoluteY), none, none,
   none, some (.cmp, .absoluteX), some (.dec, .absoluteX), none]

/-- Row `E_` of the matrix R100, columns `_0` to `_F`. -/
def opcodeRowE : List Slot :=
  [some (.cpx, .immediate), some (.sbc, .indexedIndirect), none, none,
   some (.cpx, .zeroPage), some (.sbc, .zeroPage), some (.inc, .zeroPage), none,
   some (.inx, .implied), some (.sbc, .immediate), some (.nop, .implied), none,
   some (.cpx, .absolute), some (.sbc, .absolute), some (.inc, .absolute), none]

/-- Row `F_` of the matrix R100, columns `_0` to `_F`. -/
def opcodeRowF : List Slot :=
  [some (.beq, .relative), some (.sbc, .indirectIndexed), none, none,
   none, some (.sbc, .zeroPageX), some (.inc, .zeroPageX), none,
   some (.sed, .implied), some (.sbc, .absoluteY), none, none,
   none, some (.sbc, .absoluteX), some (.inc, .absoluteX), none]

/-- The matrix R100, rows by high nibble. -/
def opcodeMatrix : List (List Slot) :=
  [opcodeRow0, opcodeRow1, opcodeRow2, opcodeRow3, opcodeRow4, opcodeRow5, opcodeRow6, opcodeRow7,
   opcodeRow8, opcodeRow9, opcodeRowA, opcodeRowB, opcodeRowC, opcodeRowD, opcodeRowE, opcodeRowF]

/-- LOOKUP in the default instance of `OPCODE_TABLE`: the slot at row high nibble, column low nibble (R100, R140). -/
def opcodeTable : OpcodeTable := fun b =>
  (opcodeMatrix.getD (b.toNat / 16) []).getD (b.toNat % 16) none

/-! ### The Instruction (10_state R26) -/

/-- `Instruction`: what a successful decode with table `T` returns (R26). The triple carries the two invariants as proofs, so
that one which breaks either, such as `(NOP, Absolute(0), 1)`, is no term of the type; the size is then 1, 2 or 3. -/
structure InstructionOf (T : OpcodeTable) extends Triple where
  /-- Invariant (b): the size is determined solely by the addressing mode. -/
  sizeIsModes : size = operand.mode.size
  /-- Invariant (a): the operand's tag is the mode of a table entry of its Operation, the one that made it. -/
  tagIsEntrys : ∃ b, T b = some (operation, operand.mode)
  deriving DecidableEq, Repr

/-- The Instructions of the block with its default table. -/
abbrev Instruction := InstructionOf opcodeTable

/-! ### The decode operation (40_decode_operations R140 to R146) -/

/-- Why a decode yields `None`: the cases of R300 in the order they are checked (R312). The block's output does not
tell them apart (R147), so they appear in no output and in no state (log 13). -/
inductive Absence where
  /-- Step 1: "if the window is empty, fail" (R146); a case of truncated buffer (R303). -/
  | emptyWindow
  /-- Step 2: the opcode byte's slot is empty (R301). -/
  | unmapped
  /-- Step 4: fewer bytes than the mode's size (R302). -/
  | truncated
  deriving DecidableEq, Repr

/-- `w[i]`. Only ever applied below the window's length (R143: after BOUNDS), where the default plays no part. -/
def byteAt (w : List Byte) (i : Nat) : Byte := w.getD i 0#8

/-- EXTRACT (R143). -/
def extract (m : AddressingMode) (w : List Byte) : Operand :=
  match m with
  | .absolute => .absolute (joinBytes (byteAt w 1) (byteAt w 2))
  | .absoluteX => .absoluteX (joinBytes (byteAt w 1) (byteAt w 2))
  | .absoluteY => .absoluteY (joinBytes (byteAt w 1) (byteAt w 2))
  | .accumulator => .accumulator
  | .immediate => .immediate (byteAt w 1)
  | .implied => .implied
  | .indexedIndirect => .indexedIndirect (byteAt w 1)
  | .indirect => .indirect (joinBytes (byteAt w 1) (byteAt w 2))
  | .indirectIndexed => .indirectIndexed (byteAt w 1)
  | .relative => .relative (sint8 (byteAt w 1))
  | .zeroPage => .zeroPage (byteAt w 1)
  | .zeroPageX => .zeroPageX (byteAt w 1)
  | .zeroPageY => .zeroPageY (byteAt w 1)

/-- The operand EXTRACT makes has the mode's own tag. -/
@[simp] theorem extract_mode (m : AddressingMode) (w : List Byte) : (extract m w).mode = m := by cases m <;> rfl

/-- LOOKUP (R140): what the slot of a byte holds, with the fact that it does. -/
def lookup (T : OpcodeTable) (b : Byte) : Option { e : Operation × AddressingMode // T b = some e } :=
  (T b).attach

/-- BOUNDS (R142): lengths only. -/
def boundsPass (len size : Nat) : Bool := decide (size ≤ len)

/-- PACKAGE (R144): the only maker of Instructions, so that none exists that breaks an invariant of R26. -/
def package {T : OpcodeTable} (op : Operation) (operand : Operand) (size : Nat) (hsize : size = operand.mode.size)
    (hentry : ∃ b, T b = some (op, operand.mode)) : InstructionOf T :=
  ⟨⟨op, operand, size⟩, hsize, hentry⟩

/-- DECODE (R146) with the step that fails named. -/
def classifyWith (T : OpcodeTable) (w : List Byte) : Except Absence (InstructionOf T) :=
  match w with
  | [] => .error .emptyWindow
  | b :: _ =>
    match lookup T b with
    | none => .error .unmapped
    | some ⟨(op, m), entry⟩ =>
      if boundsPass w.length m.size then
        .ok (package op (extract m w) m.size (by rw [extract_mode]) ⟨b, by rw [extract_mode]; exact entry⟩)
      else .error .truncated

/-- DECODE (R146): `decode(w)` for a given table. -/
def decodeWith (T : OpcodeTable) (w : List Byte) : Option (InstructionOf T) :=
  match classifyWith T w with
  | .ok i => some i
  | .error _ => none

/-- DECODE with the default table. -/
def decode (w : List Byte) : Option Instruction := decodeWith opcodeTable w

/-- The window indices a decode reads, in order (R61, R147): none of an empty window, the opcode alone when the lookup
or the bounds check fails, otherwise index 0 up to the size. -/
def readsWith (T : OpcodeTable) (w : List Byte) : List Nat :=
  match w with
  | [] => []
  | _ :: _ =>
    match classifyWith T w with
    | .error _ => [0]
    | .ok i => List.range i.size

/-! ### The decoder to `Instr` -/


/-- The constructor with mode Immediate of an Operation, if it has one (R101). -/
def Instr.ofImmediate (op : Operation) (v : Byte) : Option Instr :=
  match op with
  | .adc => some (.adcImm v)
  | .and => some (.andImm v)
  | .cmp => some (.cmpImm v)
  | .cpx => some (.cpxImm v)
  | .cpy => some (.cpyImm v)
  | .eor => some (.eorImm v)
  | .lda => some (.ldaImm v)
  | .ldx => some (.ldxImm v)
  | .ldy => some (.ldyImm v)
  | .ora => some (.oraImm v)
  | .sbc => some (.sbcImm v)
  | _ => none

/-- The constructor with mode ZeroPage of an Operation, if it has one (R101). -/
def Instr.ofZeroPage (op : Operation) (v : Byte) : Option Instr :=
  match op with
  | .adc => some (.adcZp v)
  | .and => some (.andZp v)
  | .asl => some (.aslZp v)
  | .bit => some (.bitZp v)
  | .cmp => some (.cmpZp v)
  | .cpx => some (.cpxZp v)
  | .cpy => some (.cpyZp v)
  | .dec => some (.decZp v)
  | .eor => some (.eorZp v)
  | .inc => some (.incZp v)
  | .lda => some (.ldaZp v)
  | .ldx => some (.ldxZp v)
  | .ldy => some (.ldyZp v)
  | .lsr => some (.lsrZp v)
  | .ora => some (.oraZp v)
  | .rol => some (.rolZp v)
  | .ror => some (.rorZp v)
  | .sbc => some (.sbcZp v)
  | .sta => some (.staZp v)
  | .stx => some (.stxZp v)
  | .sty => some (.styZp v)
  | _ => none

/-- The constructor with mode ZeroPageX of an Operation, if it has one (R101). -/
def Instr.ofZeroPageX (op : Operation) (v : Byte) : Option Instr :=
  match op with
  | .adc => some (.adcZpx v)
  | .and => some (.andZpx v)
  | .asl => some (.aslZpx v)
  | .cmp => some (.cmpZpx v)
  | .dec => some (.decZpx v)
  | .eor => some (.eorZpx v)
  | .inc => some (.incZpx v)
  | .lda => some (.ldaZpx v)
  | .ldy => some (.ldyZpx v)
  | .lsr => some (.lsrZpx v)
  | .ora => some (.oraZpx v)
  | .rol => some (.rolZpx v)
  | .ror => some (.rorZpx v)
  | .sbc => some (.sbcZpx v)
  | .sta => some (.staZpx v)
  | .sty => some (.styZpx v)
  | _ => none

/-- The constructor with mode ZeroPageY of an Operation, if it has one (R101). -/
def Instr.ofZeroPageY (op : Operation) (v : Byte) : Option Instr :=
  match op with
  | .ldx => some (.ldxZpy v)
  | .stx => some (.stxZpy v)
  | _ => none

/-- The constructor with mode Absolute of an Operation, if it has one (R101). -/
def Instr.ofAbsolute (op : Operation) (a : Word) : Option Instr :=
  match op with
  | .adc => some (.adcAbs a)
  | .and => some (.andAbs a)
  | .asl => some (.aslAbs a)
  | .bit => some (.bitAbs a)
  | .cmp => some (.cmpAbs a)
  | .cpx => some (.cpxAbs a)
  | .cpy => some (.cpyAbs a)
  | .dec => some (.decAbs a)
  | .eor => some (.eorAbs a)
  | .inc => some (.incAbs a)
  | .jmp => some (.jmpAbs a)
  | .jsr => some (.jsrAbs a)
  | .lda => some (.ldaAbs a)
  | .ldx => some (.ldxAbs a)
  | .ldy => some (.ldyAbs a)
  | .lsr => some (.lsrAbs a)
  | .ora => some (.oraAbs a)
  | .rol => some (.rolAbs a)
  | .ror => some (.rorAbs a)
  | .sbc => some (.sbcAbs a)
  | .sta => some (.staAbs a)
  | .stx => some (.stxAbs a)
  | .sty => some (.styAbs a)
  | _ => none

/-- The constructor with mode AbsoluteX of an Operation, if it has one (R101). -/
def Instr.ofAbsoluteX (op : Operation) (a : Word) : Option Instr :=
  match op with
  | .adc => some (.adcAbx a)
  | .and => some (.andAbx a)
  | .asl => some (.aslAbx a)
  | .cmp => some (.cmpAbx a)
  | .dec => some (.decAbx a)
  | .eor => some (.eorAbx a)
  | .inc => some (.incAbx a)
  | .lda => some (.ldaAbx a)
  | .ldy => some (.ldyAbx a)
  | .lsr => some (.lsrAbx a)
  | .ora => some (.oraAbx a)
  | .rol => some (.rolAbx a)
  | .ror => some (.rorAbx a)
  | .sbc => some (.sbcAbx a)
  | .sta => some (.staAbx a)
  | _ => none

/-- The constructor with mode AbsoluteY of an Operation, if it has one (R101). -/
def Instr.ofAbsoluteY (op : Operation) (a : Word) : Option Instr :=
  match op with
  | .adc => some (.adcAby a)
  | .and => some (.andAby a)
  | .cmp => some (.cmpAby a)
  | .eor => some (.eorAby a)
  | .lda => some (.ldaAby a)
  | .ldx => some (.ldxAby a)
  | .ora => some (.oraAby a)
  | .sbc => some (.sbcAby a)
  | .sta => some (.staAby a)
  | _ => none

/-- The constructor with mode IndexedIndirect of an Operation, if it has one (R101). -/
def Instr.ofIndexedIndirect (op : Operation) (v : Byte) : Option Instr :=
  match op with
  | .adc => some (.adcIzx v)
  | .and => some (.andIzx v)
  | .cmp => some (.cmpIzx v)
  | .eor => some (.eorIzx v)
  | .lda => some (.ldaIzx v)
  | .ora => some (.oraIzx v)
  | .sbc => some (.sbcIzx v)
  | .sta => some (.staIzx v)
  | _ => none

/-- The constructor with mode IndirectIndexed of an Operation, if it has one (R101). -/
def Instr.ofIndirectIndexed (op : Operation) (v : Byte) : Option Instr :=
  match op with
  | .adc => some (.adcIzy v)
  | .and => some (.andIzy v)
  | .cmp => some (.cmpIzy v)
  | .eor => some (.eorIzy v)
  | .lda => some (.ldaIzy v)
  | .ora => some (.oraIzy v)
  | .sbc => some (.sbcIzy v)
  | .sta => some (.staIzy v)
  | _ => none

/-- The constructor with mode Accumulator of an Operation, if it has one (R101). -/
def Instr.ofAccumulator (op : Operation) : Option Instr :=
  match op with
  | .asl => some .aslAcc
  | .lsr => some .lsrAcc
  | .rol => some .rolAcc
  | .ror => some .rorAcc
  | _ => none

/-- The constructor with mode Indirect of an Operation, if it has one (R101). -/
def Instr.ofIndirect (op : Operation) (a : Word) : Option Instr :=
  match op with
  | .jmp => some (.jmpInd a)
  | _ => none

/-- The constructor with mode Relative of an Operation, if it has one (R101). -/
def Instr.ofRelative (op : Operation) (k : Int) : Option Instr :=
  match op with
  | .bcc => some (.bccRel k)
  | .bcs => some (.bcsRel k)
  | .beq => some (.beqRel k)
  | .bmi => some (.bmiRel k)
  | .bne => some (.bneRel k)
  | .bpl => some (.bplRel k)
  | .bvc => some (.bvcRel k)
  | .bvs => some (.bvsRel k)
  | _ => none

/-- The constructor with mode Implied of an Operation, if it has one (R101). -/
def Instr.ofImplied (op : Operation) : Option Instr :=
  match op with
  | .brk => some .brk
  | .clc => some .clc
  | .cld => some .cld
  | .cli => some .cli
  | .clv => some .clv
  | .dex => some .dex
  | .dey => some .dey
  | .inx => some .inx
  | .iny => some .iny
  | .nop => some .nop
  | .pha => some .pha
  | .php => some .php
  | .pla => some .pla
  | .plp => some .plp
  | .rti => some .rti
  | .rts => some .rts
  | .sec => some .sec
  | .sed => some .sed
  | .sei => some .sei
  | .tax => some .tax
  | .tay => some .tay
  | .tsx => some .tsx
  | .txa => some .txa
  | .txs => some .txs
  | .tya => some .tya
  | _ => none

/-- The constructor that stands for an (Operation, Operand) pair of the default table. -/
def Instr.ofPair (op : Operation) (operand : Operand) : Option Instr :=
  match operand with
  | .absolute a => Instr.ofAbsolute op a
  | .absoluteX a => Instr.ofAbsoluteX op a
  | .absoluteY a => Instr.ofAbsoluteY op a
  | .accumulator => Instr.ofAccumulator op
  | .immediate v => Instr.ofImmediate op v
  | .implied => Instr.ofImplied op
  | .indexedIndirect v => Instr.ofIndexedIndirect op v
  | .indirect a => Instr.ofIndirect op a
  | .indirectIndexed v => Instr.ofIndirectIndexed op v
  | .relative k => Instr.ofRelative op k
  | .zeroPage v => Instr.ofZeroPage op v
  | .zeroPageX v => Instr.ofZeroPageX op v
  | .zeroPageY v => Instr.ofZeroPageY op v

/-- The decoder, total on every byte sequence: an instruction or the reason there is none. The last arm, a table pair
with no constructor, is not met with the default table (log 13). -/
def decodeInstr (w : List Byte) : Except Absence Instr :=
  match classifyWith opcodeTable w with
  | .error e => .error e
  | .ok i =>
    match Instr.ofPair i.operation i.operand with
    | some x => .ok x
    | none => .error .unmapped

/-- An instruction's bytes from its bits as spec/opcode_table.json numbers them, bit 0 the least significant bit of the
first byte: the low `nbits` bits of `w`, zero above, laid out as `MAX_SIZE` bytes. -/
def tableBytes (nbits w : Nat) : List Byte :=
  let v := w % 2 ^ nbits
  [BitVec.ofNat 8 v, BitVec.ofNat 8 (v / 256), BitVec.ofNat 8 (v / 65536)]

/-- What the decoder reads from an instruction whose bits are `w`, numbered as the opcode table numbers them. -/
def decodeTableWord (nbits w : Nat) : Option Instr :=
  match decodeInstr (tableBytes nbits w) with
  | .ok i => some i
  | .error _ => none

/-! ### The encoder (from the encoding tables of files 41 to 46, and R155) -/

/-- The opcode byte of each instruction, from the encoding table of its rule. -/
def Instr.opcode : Instr → Byte
  | .ldaImm _ => 0xA9#8
  | .ldaZp _ => 0xA5#8
  | .ldaZpx _ => 0xB5#8
  | .ldaAbs _ => 0xAD#8
  | .ldaAbx _ => 0xBD#8
  | .ldaAby _ => 0xB9#8
  | .ldaIzx _ => 0xA1#8
  | .ldaIzy _ => 0xB1#8
  | .ldxImm _ => 0xA2#8
  | .ldxZp _ => 0xA6#8
  | .ldxZpy _ => 0xB6#8
  | .ldxAbs _ => 0xAE#8
  | .ldxAby _ => 0xBE#8
  | .ldyImm _ => 0xA0#8
  | .ldyZp _ => 0xA4#8
  | .ldyZpx _ => 0xB4#8
  | .ldyAbs _ => 0xAC#8
  | .ldyAbx _ => 0xBC#8
  | .staZp _ => 0x85#8
  | .staZpx _ => 0x95#8
  | .staAbs _ => 0x8D#8
  | .staAbx _ => 0x9D#8
  | .staAby _ => 0x99#8
  | .staIzx _ => 0x81#8
  | .staIzy _ => 0x91#8
  | .stxZp _ => 0x86#8
  | .stxZpy _ => 0x96#8
  | .stxAbs _ => 0x8E#8
  | .styZp _ => 0x84#8
  | .styZpx _ => 0x94#8
  | .styAbs _ => 0x8C#8
  | .tax => 0xAA#8
  | .tay => 0xA8#8
  | .tsx => 0xBA#8
  | .txa => 0x8A#8
  | .txs => 0x9A#8
  | .tya => 0x98#8
  | .pha => 0x48#8
  | .php => 0x08#8
  | .pla => 0x68#8
  | .plp => 0x28#8
  | .adcImm _ => 0x69#8
  | .adcZp _ => 0x65#8
  | .adcZpx _ => 0x75#8
  | .adcAbs _ => 0x6D#8
  | .adcAbx _ => 0x7D#8
  | .adcAby _ => 0x79#8
  | .adcIzx _ => 0x61#8
  | .adcIzy _ => 0x71#8
  | .sbcImm _ => 0xE9#8
  | .sbcZp _ => 0xE5#8
  | .sbcZpx _ => 0xF5#8
  | .sbcAbs _ => 0xED#8
  | .sbcAbx _ => 0xFD#8
  | .sbcAby _ => 0xF9#8
  | .sbcIzx _ => 0xE1#8
  | .sbcIzy _ => 0xF1#8
  | .andImm _ => 0x29#8
  | .andZp _ => 0x25#8
  | .andZpx _ => 0x35#8
  | .andAbs _ => 0x2D#8
  | .andAbx _ => 0x3D#8
  | .andAby _ => 0x39#8
  | .andIzx _ => 0x21#8
  | .andIzy _ => 0x31#8
  | .oraImm _ => 0x09#8
  | .oraZp _ => 0x05#8
  | .oraZpx _ => 0x15#8
  | .oraAbs _ => 0x0D#8
  | .oraAbx _ => 0x1D#8
  | .oraAby _ => 0x19#8
  | .oraIzx _ => 0x01#8
  | .oraIzy _ => 0x11#8
  | .eorImm _ => 0x49#8
  | .eorZp _ => 0x45#8
  | .eorZpx _ => 0x55#8
  | .eorAbs _ => 0x4D#8
  | .eorAbx _ => 0x5D#8
  | .eorAby _ => 0x59#8
  | .eorIzx _ => 0x41#8
  | .eorIzy _ => 0x51#8
  | .cmpImm _ => 0xC9#8
  | .cmpZp _ => 0xC5#8
  | .cmpZpx _ => 0xD5#8
  | .cmpAbs _ => 0xCD#8
  | .cmpAbx _ => 0xDD#8
  | .cmpAby _ => 0xD9#8
  | .cmpIzx _ => 0xC1#8
  | .cmpIzy _ => 0xD1#8
  | .cpxImm _ => 0xE0#8
  | .cpxZp _ => 0xE4#8
  | .cpxAbs _ => 0xEC#8
  | .cpyImm _ => 0xC0#8
  | .cpyZp _ => 0xC4#8
  | .cpyAbs _ => 0xCC#8
  | .bitZp _ => 0x24#8
  | .bitAbs _ => 0x2C#8
  | .aslZp _ => 0x06#8
  | .aslZpx _ => 0x16#8
  | .aslAbs _ => 0x0E#8
  | .aslAbx _ => 0x1E#8
  | .aslAcc => 0x0A#8
  | .lsrZp _ => 0x46#8
  | .lsrZpx _ => 0x56#8
  | .lsrAbs _ => 0x4E#8
  | .lsrAbx _ => 0x5E#8
  | .lsrAcc => 0x4A#8
  | .rolZp _ => 0x26#8
  | .rolZpx _ => 0x36#8
  | .rolAbs _ => 0x2E#8
  | .rolAbx _ => 0x3E#8
  | .rolAcc => 0x2A#8
  | .rorZp _ => 0x66#8
  | .rorZpx _ => 0x76#8
  | .rorAbs _ => 0x6E#8
  | .rorAbx _ => 0x7E#8
  | .rorAcc => 0x6A#8
  | .incZp _ => 0xE6#8
  | .incZpx _ => 0xF6#8
  | .incAbs _ => 0xEE#8
  | .incAbx _ => 0xFE#8
  | .decZp _ => 0xC6#8
  | .decZpx _ => 0xD6#8
  | .decAbs _ => 0xCE#8
  | .decAbx _ => 0xDE#8
  | .inx => 0xE8#8
  | .iny => 0xC8#8
  | .dex => 0xCA#8
  | .dey => 0x88#8
  | .bccRel _ => 0x90#8
  | .bcsRel _ => 0xB0#8
  | .beqRel _ => 0xF0#8
  | .bmiRel _ => 0x30#8
  | .bneRel _ => 0xD0#8
  | .bplRel _ => 0x10#8
  | .bvcRel _ => 0x50#8
  | .bvsRel _ => 0x70#8
  | .jmpAbs _ => 0x4C#8
  | .jmpInd _ => 0x6C#8
  | .jsrAbs _ => 0x20#8
  | .rts => 0x60#8
  | .rti => 0x40#8
  | .brk => 0x00#8
  | .nop => 0xEA#8
  | .clc => 0x18#8
  | .cld => 0xD8#8
  | .cli => 0x58#8
  | .clv => 0xB8#8
  | .sec => 0x38#8
  | .sed => 0xF8#8
  | .sei => 0x78#8

/-- The triple each instruction stands for: the Operation, the Operand and the size of its row (R200 to R255). -/
def Instr.triple : Instr → Triple
  | .ldaImm v => ⟨.lda, .immediate v, 2⟩
  | .ldaZp v => ⟨.lda, .zeroPage v, 2⟩
  | .ldaZpx v => ⟨.lda, .zeroPageX v, 2⟩
  | .ldaAbs a => ⟨.lda, .absolute a, 3⟩
  | .ldaAbx a => ⟨.lda, .absoluteX a, 3⟩
  | .ldaAby a => ⟨.lda, .absoluteY a, 3⟩
  | .ldaIzx v => ⟨.lda, .indexedIndirect v, 2⟩
  | .ldaIzy v => ⟨.lda, .indirectIndexed v, 2⟩
  | .ldxImm v => ⟨.ldx, .immediate v, 2⟩
  | .ldxZp v => ⟨.ldx, .zeroPage v, 2⟩
  | .ldxZpy v => ⟨.ldx, .zeroPageY v, 2⟩
  | .ldxAbs a => ⟨.ldx, .absolute a, 3⟩
  | .ldxAby a => ⟨.ldx, .absoluteY a, 3⟩
  | .ldyImm v => ⟨.ldy, .immediate v, 2⟩
  | .ldyZp v => ⟨.ldy, .zeroPage v, 2⟩
  | .ldyZpx v => ⟨.ldy, .zeroPageX v, 2⟩
  | .ldyAbs a => ⟨.ldy, .absolute a, 3⟩
  | .ldyAbx a => ⟨.ldy, .absoluteX a, 3⟩
  | .staZp v => ⟨.sta, .zeroPage v, 2⟩
  | .staZpx v => ⟨.sta, .zeroPageX v, 2⟩
  | .staAbs a => ⟨.sta, .absolute a, 3⟩
  | .staAbx a => ⟨.sta, .absoluteX a, 3⟩
  | .staAby a => ⟨.sta, .absoluteY a, 3⟩
  | .staIzx v => ⟨.sta, .indexedIndirect v, 2⟩
  | .staIzy v => ⟨.sta, .indirectIndexed v, 2⟩
  | .stxZp v => ⟨.stx, .zeroPage v, 2⟩
  | .stxZpy v => ⟨.stx, .zeroPageY v, 2⟩
  | .stxAbs a => ⟨.stx, .absolute a, 3⟩
  | .styZp v => ⟨.sty, .zeroPage v, 2⟩
  | .styZpx v => ⟨.sty, .zeroPageX v, 2⟩
  | .styAbs a => ⟨.sty, .absolute a, 3⟩
  | .tax => ⟨.tax, .implied, 1⟩
  | .tay => ⟨.tay, .implied, 1⟩
  | .tsx => ⟨.tsx, .implied, 1⟩
  | .txa => ⟨.txa, .implied, 1⟩
  | .txs => ⟨.txs, .implied, 1⟩
  | .tya => ⟨.tya, .implied, 1⟩
  | .pha => ⟨.pha, .implied, 1⟩
  | .php => ⟨.php, .implied, 1⟩
  | .pla => ⟨.pla, .implied, 1⟩
  | .plp => ⟨.plp, .implied, 1⟩
  | .adcImm v => ⟨.adc, .immediate v, 2⟩
  | .adcZp v => ⟨.adc, .zeroPage v, 2⟩
  | .adcZpx v => ⟨.adc, .zeroPageX v, 2⟩
  | .adcAbs a => ⟨.adc, .absolute a, 3⟩
  | .adcAbx a => ⟨.adc, .absoluteX a, 3⟩
  | .adcAby a => ⟨.adc, .absoluteY a, 3⟩
  | .adcIzx v => ⟨.adc, .indexedIndirect v, 2⟩
  | .adcIzy v => ⟨.adc, .indirectIndexed v, 2⟩
  | .sbcImm v => ⟨.sbc, .immediate v, 2⟩
  | .sbcZp v => ⟨.sbc, .zeroPage v, 2⟩
  | .sbcZpx v => ⟨.sbc, .zeroPageX v, 2⟩
  | .sbcAbs a => ⟨.sbc, .absolute a, 3⟩
  | .sbcAbx a => ⟨.sbc, .absoluteX a, 3⟩
  | .sbcAby a => ⟨.sbc, .absoluteY a, 3⟩
  | .sbcIzx v => ⟨.sbc, .indexedIndirect v, 2⟩
  | .sbcIzy v => ⟨.sbc, .indirectIndexed v, 2⟩
  | .andImm v => ⟨.and, .immediate v, 2⟩
  | .andZp v => ⟨.and, .zeroPage v, 2⟩
  | .andZpx v => ⟨.and, .zeroPageX v, 2⟩
  | .andAbs a => ⟨.and, .absolute a, 3⟩
  | .andAbx a => ⟨.and, .absoluteX a, 3⟩
  | .andAby a => ⟨.and, .absoluteY a, 3⟩
  | .andIzx v => ⟨.and, .indexedIndirect v, 2⟩
  | .andIzy v => ⟨.and, .indirectIndexed v, 2⟩
  | .oraImm v => ⟨.ora, .immediate v, 2⟩
  | .oraZp v => ⟨.ora, .zeroPage v, 2⟩
  | .oraZpx v => ⟨.ora, .zeroPageX v, 2⟩
  | .oraAbs a => ⟨.ora, .absolute a, 3⟩
  | .oraAbx a => ⟨.ora, .absoluteX a, 3⟩
  | .oraAby a => ⟨.ora, .absoluteY a, 3⟩
  | .oraIzx v => ⟨.ora, .indexedIndirect v, 2⟩
  | .oraIzy v => ⟨.ora, .indirectIndexed v, 2⟩
  | .eorImm v => ⟨.eor, .immediate v, 2⟩
  | .eorZp v => ⟨.eor, .zeroPage v, 2⟩
  | .eorZpx v => ⟨.eor, .zeroPageX v, 2⟩
  | .eorAbs a => ⟨.eor, .absolute a, 3⟩
  | .eorAbx a => ⟨.eor, .absoluteX a, 3⟩
  | .eorAby a => ⟨.eor, .absoluteY a, 3⟩
  | .eorIzx v => ⟨.eor, .indexedIndirect v, 2⟩
  | .eorIzy v => ⟨.eor, .indirectIndexed v, 2⟩
  | .cmpImm v => ⟨.cmp, .immediate v, 2⟩
  | .cmpZp v => ⟨.cmp, .zeroPage v, 2⟩
  | .cmpZpx v => ⟨.cmp, .zeroPageX v, 2⟩
  | .cmpAbs a => ⟨.cmp, .absolute a, 3⟩
  | .cmpAbx a => ⟨.cmp, .absoluteX a, 3⟩
  | .cmpAby a => ⟨.cmp, .absoluteY a, 3⟩
  | .cmpIzx v => ⟨.cmp, .indexedIndirect v, 2⟩
  | .cmpIzy v => ⟨.cmp, .indirectIndexed v, 2⟩
  | .cpxImm v => ⟨.cpx, .immediate v, 2⟩
  | .cpxZp v => ⟨.cpx, .zeroPage v, 2⟩
  | .cpxAbs a => ⟨.cpx, .absolute a, 3⟩
  | .cpyImm v => ⟨.cpy, .immediate v, 2⟩
  | .cpyZp v => ⟨.cpy, .zeroPage v, 2⟩
  | .cpyAbs a => ⟨.cpy, .absolute a, 3⟩
  | .bitZp v => ⟨.bit, .zeroPage v, 2⟩
  | .bitAbs a => ⟨.bit, .absolute a, 3⟩
  | .aslZp v => ⟨.asl, .zeroPage v, 2⟩
  | .aslZpx v => ⟨.asl, .zeroPageX v, 2⟩
  | .aslAbs a => ⟨.asl, .absolute a, 3⟩
  | .aslAbx a => ⟨.asl, .absoluteX a, 3⟩
  | .aslAcc => ⟨.asl, .accumulator, 1⟩
  | .lsrZp v => ⟨.lsr, .zeroPage v, 2⟩
  | .lsrZpx v => ⟨.lsr, .zeroPageX v, 2⟩
  | .lsrAbs a => ⟨.lsr, .absolute a, 3⟩
  | .lsrAbx a => ⟨.lsr, .absoluteX a, 3⟩
  | .lsrAcc => ⟨.lsr, .accumulator, 1⟩
  | .rolZp v => ⟨.rol, .zeroPage v, 2⟩
  | .rolZpx v => ⟨.rol, .zeroPageX v, 2⟩
  | .rolAbs a => ⟨.rol, .absolute a, 3⟩
  | .rolAbx a => ⟨.rol, .absoluteX a, 3⟩
  | .rolAcc => ⟨.rol, .accumulator, 1⟩
  | .rorZp v => ⟨.ror, .zeroPage v, 2⟩
  | .rorZpx v => ⟨.ror, .zeroPageX v, 2⟩
  | .rorAbs a => ⟨.ror, .absolute a, 3⟩
  | .rorAbx a => ⟨.ror, .absoluteX a, 3⟩
  | .rorAcc => ⟨.ror, .accumulator, 1⟩
  | .incZp v => ⟨.inc, .zeroPage v, 2⟩
  | .incZpx v => ⟨.inc, .zeroPageX v, 2⟩
  | .incAbs a => ⟨.inc, .absolute a, 3⟩
  | .incAbx a => ⟨.inc, .absoluteX a, 3⟩
  | .decZp v => ⟨.dec, .zeroPage v, 2⟩
  | .decZpx v => ⟨.dec, .zeroPageX v, 2⟩
  | .decAbs a => ⟨.dec, .absolute a, 3⟩
  | .decAbx a => ⟨.dec, .absoluteX a, 3⟩
  | .inx => ⟨.inx, .implied, 1⟩
  | .iny => ⟨.iny, .implied, 1⟩
  | .dex => ⟨.dex, .implied, 1⟩
  | .dey => ⟨.dey, .implied, 1⟩
  | .bccRel k => ⟨.bcc, .relative k, 2⟩
  | .bcsRel k => ⟨.bcs, .relative k, 2⟩
  | .beqRel k => ⟨.beq, .relative k, 2⟩
  | .bmiRel k => ⟨.bmi, .relative k, 2⟩
  | .bneRel k => ⟨.bne, .relative k, 2⟩
  | .bplRel k => ⟨.bpl, .relative k, 2⟩
  | .bvcRel k => ⟨.bvc, .relative k, 2⟩
  | .bvsRel k => ⟨.bvs, .relative k, 2⟩
  | .jmpAbs a => ⟨.jmp, .absolute a, 3⟩
  | .jmpInd a => ⟨.jmp, .indirect a, 3⟩
  | .jsrAbs a => ⟨.jsr, .absolute a, 3⟩
  | .rts => ⟨.rts, .implied, 1⟩
  | .rti => ⟨.rti, .implied, 1⟩
  | .brk => ⟨.brk, .implied, 1⟩
  | .nop => ⟨.nop, .implied, 1⟩
  | .clc => ⟨.clc, .implied, 1⟩
  | .cld => ⟨.cld, .implied, 1⟩
  | .cli => ⟨.cli, .implied, 1⟩
  | .clv => ⟨.clv, .implied, 1⟩
  | .sec => ⟨.sec, .implied, 1⟩
  | .sed => ⟨.sed, .implied, 1⟩
  | .sei => ⟨.sei, .implied, 1⟩

/-- The size of each row is its mode's (R84). -/
theorem Instr.triple_size (i : Instr) : i.triple.size = i.triple.operand.mode.size := by cases i <;> rfl

/-- The slot of an instruction's opcode byte holds its Operation and its operand's mode (R100). -/
theorem Instr.triple_entry (i : Instr) :
    opcodeTable i.opcode = some (i.triple.operation, i.triple.operand.mode) := by
  cases i <;> (simp only [Instr.opcode, Instr.triple, Operand.mode]; rfl)

/-- The Instruction of R26 each instruction stands for. -/
def Instr.instruction (i : Instr) : Instruction := ⟨i.triple, i.triple_size, ⟨i.opcode, i.triple_entry⟩⟩

/-- The operand bytes a payload came from (R155): 16-bit payloads high byte first. -/
def Operand.bytes : Operand → List Byte
  | .absolute v | .absoluteX v | .absoluteY v | .indirect v => [highByte v, lowByte v]
  | .accumulator | .implied => []
  | .relative s => [byteOf s]
  | .immediate v | .indexedIndirect v | .indirectIndexed v | .zeroPage v | .zeroPageX v | .zeroPageY v => [v]

/-- The bytes of an instruction in stream order: the opcode at the lowest offset, then the operand bytes (R55). -/
def encode (i : Instr) : List Byte := i.opcode :: i.triple.operand.bytes

end Sys2Proof
end

