-- ==== Sys2Proof/Machine/State.lean ====
section
/-! DEFINITION. The state: the registers of the reference fetch sequencer FSEQ and the buffer it walks (10_state R36 to
R39), the reasons a step can stop, and the state after reset (R43). The fetch decoder itself holds no state (R27, R30). -/

namespace Sys2Proof.Machine

/-- `status` of FSEQ (R37). -/
inductive Status where
  /-- Until a stop. -/
  | running
  /-- "the remaining buffer is empty" (R163). -/
  | stoppedExhausted
  /-- "`decode` returns absence" before the end of the buffer (R162). -/
  | stoppedAbsent
  deriving DecidableEq, Repr

/-- The reasons a step can fault: none. "No operation of the block raises an exception, traps, aborts or hangs"
(R300); a decode that yields `None` is a value, not a fault (R306). -/
inductive Fault where
  deriving DecidableEq, Repr

/-- The reasons a step is refused, each where the spec says that there is no step. -/
inductive Refusal where
  /-- Raised by an arm of `exec` whose instruction has no meaning yet; no arm of this model is. Safe. -/
  | notModelled (mnemonic : String)
  /-- Raised by `fetch` when `status` is not Running: "FSEQ has no step" (R160; 93 U5 "refuse"). Safe. -/
  | walkStopped
  /-- Raised by `fetch` when the buffer breaks the host's duty `L <= 2^OFFW - 1` (R36; 93 Part 1 "refuse"). Safe. -/
  | bufferTooLong
  deriving DecidableEq, Repr

/-- The buffer's bytes as cells (offset, byte), in the canonical form `memWf` of Ops.lean: offsets strictly rising, no
entry holding the byte that an unlisted offset reads as (log 4). -/
abbrev Mem := List Host.Cell

/-- What the spec gives FSEQ: its registers `off` and `status`, the ghost `trace`, and the parameters of a walk, which
the host supplies and no step writes. -/
structure State where
  /-- `off`: the offset of the next instruction to decode (R36). -/
  off : Nat
  /-- `status` (R37). -/
  status : Status
  /-- `trace`: the pairs (offset, instruction) of the steps that decoded, oldest first; ghost (R39). -/
  trace : List (Nat × Instruction)
  /-- `buf`: the bytes of the buffer (R38). -/
  mem : Mem
  /-- `L`: the length of the buffer (R38). -/
  len : Nat
  /-- `OFFW`: the build's width of the offset register, the OPEN parameter of R7; no operation writes it (log 3). -/
  offw : Nat
  deriving DecidableEq, Repr

/-- The state after reset: the registers as R43 says. The buffer is host-supplied (R44): here the empty one, and `OFFW`
at its default (log 3, log 5). -/
def State.reset : State where
  off := 0
  status := .running
  trace := []
  mem := []
  len := 0
  offw := Config.defaultOffw

end Sys2Proof.Machine
end

