-- ==== Sys2Proof/Machine/Ops.lean ====
section
/-! DEFINITION. The named operations over the buffer and FSEQ's registers: reading and placing bytes, the window a step
decodes, a successful step (R161), a stop (R162, R163), and fetching the next instruction (R160). There is no exception
entry and no return from one in this hardware (60_exceptions R313, R314). -/

namespace Sys2Proof.Machine

/-! ### The buffer -/

/-- What an offset with no cell reads as (log 4). -/
def unlistedByte : Byte := 0#8

/-- The byte at an offset. -/
def readMem (m : Mem) (a : Nat) : Byte :=
  match m with
  | [] => unlistedByte
  | (k, b) :: rest => if k = a then b else readMem rest a

/-- The byte at an offset replaced, in canonical form: a cell that holds `unlistedByte` is left out. -/
def writeMem (m : Mem) (a : Nat) (v : Byte) : Mem :=
  match m with
  | [] => if v = unlistedByte then [] else [(a, v)]
  | (k, b) :: rest =>
    if a < k then
      if v = unlistedByte then (k, b) :: rest else (a, v) :: (k, b) :: rest
    else if a = k then
      if v = unlistedByte then rest else (a, v) :: rest
    else (k, b) :: writeMem rest a v

/-- Bytes placed at consecutive offsets from `a`. -/
def writeBytes (m : Mem) (a : Nat) (bs : List Byte) : Mem :=
  match bs with
  | [] => m
  | b :: rest => writeBytes (writeMem m a b) (a + 1) rest

/-- The cells from an offset on are in canonical form. -/
def memWfFrom (lo : Nat) (m : Mem) : Bool :=
  match m with
  | [] => true
  | (k, b) :: rest => decide (lo ≤ k) && decide (b ≠ unlistedByte) && memWfFrom (k + 1) rest

/-- Canonical form: offsets strictly rising, no cell holding `unlistedByte` (log 4). -/
def memWf (m : Mem) : Bool := memWfFrom 0 m

/-- Every cell lies in the buffer. -/
def memWithin (m : Mem) (len : Nat) : Bool := m.all fun c => decide (c.1 < len)

/-- `n` bytes from offset `a`: `MemRead(a, n)` (R13). -/
def bytesFrom (m : Mem) (a : Nat) : Nat → List Byte
  | 0 => []
  | n + 1 => readMem m a :: bytesFrom m (a + 1) n

/-- `buf[a..]`: the suffix of the buffer from an offset (R11, R50). -/
def suffixAt (s : State) (a : Nat) : List Byte := bytesFrom s.mem a (s.len - a)

/-- The window of a walk step, `buf[off..]` (R50, R160). -/
def window (s : State) : List Byte := suffixAt s s.off

/-! ### FSEQ's registers -/

/-- The longest buffer an `OFFW`-bit offset register admits, `2^OFFW - 1` (R36). -/
def maxLen (offw : Nat) : Nat := 2 ^ offw - 1

/-- What a successful walk step does with the decoded instruction: one pair appended to `trace`, `off` advanced by the
size, `status` and everything else as before (R160, R161). -/
def emit (i : Instruction) (s : State) : State :=
  { s with off := s.off + i.size, trace := s.trace ++ [(s.off, i)] }

/-- The shared operation of all meanings: PACKAGE the entry of an opcode byte with its mode's size (R144) and take the
successful walk step. The entry is a fact about the table, not a choice of the meaning: a pair that the byte's slot does not
hold does not compile. The block executes nothing, so no meaning does anything else (R6, R27, R28, R29). -/
def passInstruction (opcode : Byte) (op : Operation) (operand : Operand) (s : State)
    (entry : opcodeTable opcode = some (op, operand.mode) := by rfl) : Host.Outcome State Fault Refusal :=
  .next (emit (package op operand operand.mode.size rfl ⟨opcode, entry⟩) s)

/-- What a stop does: `status` written, `off` and `trace` as before (R162, R163). -/
def stop (st : Status) (s : State) : State := { s with status := st }

/-! ### Fetching -/

/-- What a state does next, before any instruction is run. -/
inductive Fetched where
  | refuse (r : Refusal)
  | stop (st : Status)
  | run (i : Instr)
  deriving DecidableEq, Repr

/-- The walk step up to the decoded instruction (R160): no step outside the host's duty on `L` or when not Running;
exhaustion is tested before decoding (R163); absence stops the walk (R162). -/
def fetch (s : State) : Fetched :=
  if maxLen s.offw < s.len then .refuse .bufferTooLong
  else
    match s.status with
    | .stoppedExhausted => .refuse .walkStopped
    | .stoppedAbsent => .refuse .walkStopped
    | .running =>
      if s.len ≤ s.off then .stop .stoppedExhausted
      else
        match decodeInstr (window s) with
        | .error _ => .stop .stoppedAbsent
        | .ok i => .run i

/-- Bytes placed where the next step fetches, inside the buffer, with FSEQ Running: what a host that loads a program at
`off` leaves (log 5). -/
def placeAtOff (bs : List Byte) (s : State) : State :=
  { s with
    mem := writeBytes s.mem s.off bs
    len := max s.len (s.off + bs.length)
    status := .running }

end Sys2Proof.Machine
end

