-- ==== Sys2Proof/Machine/Flags.lean ====
section
/-! DEFINITION. The flag computations: none. The block has no flag, no condition code and no control register, and no
instruction reads or writes one (10_state R29); the only status it has is FSEQ's `status`, and this file says what it
reports. -/

namespace Sys2Proof.Machine

/-- A run of FSEQ is over when `status` is not Running (R163). -/
def Status.stopped : Status → Bool
  | .running => false
  | .stoppedExhausted => true
  | .stoppedAbsent => true

/-- What `status` says of the walk's position: Running nothing, StoppedExhausted that `off = L`, StoppedAbsent that
`off < L` and the window there does not decode (R37). -/
def statusTruthful (T : OpcodeTable) (s : State) : Bool :=
  match s.status with
  | .running => true
  | .stoppedExhausted => decide (s.off = s.len)
  | .stoppedAbsent => decide (s.off < s.len) && decide (decodeWith T (window s) = none)

/-- Why the walk stopped on absence, which `status` does not record and the host can recompute from `buf[off]` and
`L - off` (R305). -/
def absenceAt (T : OpcodeTable) (s : State) : Option Absence :=
  match classifyWith T (window s) with
  | .ok _ => none
  | .error e => some e

end Sys2Proof.Machine
end

