-- ==== Sys2Proof/Machine/ArithLogic.lean ====
section
/-! DEFINITION. The meanings of the arithmetic, logic, compare and bit-test mnemonics (file 43, R216 to R224): the block passes the instruction, and executes nothing (R6). -/

namespace Sys2Proof.Machine

/-- ADC Immediate (`0x69`, R216). -/
def execAdcImm (v : Byte) (s : State) : Host.Outcome State Fault Refusal :=
  passInstruction 0x69#8 .adc (.immediate v) s

/-- ADC ZeroPage (`0x65`, R216). -/
def execAdcZp (v : Byte) (s : State) : Host.Outcome State Fault Refusal :=
  passInstruction 0x65#8 .adc (.zeroPage v) s

/-- ADC ZeroPageX (`0x75`, R216). -/
def execAdcZpx (v : Byte) (s : State) : Host.Outcome State Fault Refusal :=
  passInstruction 0x75#8 .adc (.zeroPageX v) s

/-- ADC Absolute (`0x6D`, R216). -/
def execAdcAbs (a : Word) (s : State) : Host.Outcome State Fault Refusal :=
  passInstruction 0x6D#8 .adc (.absolute a) s

/-- ADC AbsoluteX (`0x7D`, R216). -/
def execAdcAbx (a : Word) (s : State) : Host.Outcome State Fault Refusal :=
  passInstruction 0x7D#8 .adc (.absoluteX a) s

/-- ADC AbsoluteY (`0x79`, R216). -/
def execAdcAby (a : Word) (s : State) : Host.Outcome State Fault Refusal :=
  passInstruction 0x79#8 .adc (.absoluteY a) s

/-- ADC IndexedIndirect (`0x61`, R216). -/
def execAdcIzx (v : Byte) (s : State) : Host.Outcome State Fault Refusal :=
  passInstruction 0x61#8 .adc (.indexedIndirect v) s

/-- ADC IndirectIndexed (`0x71`, R216). -/
def execAdcIzy (v : Byte) (s : State) : Host.Outcome State Fault Refusal :=
  passInstruction 0x71#8 .adc (.indirectIndexed v) s

/-- SBC Immediate (`0xE9`, R217). -/
def execSbcImm (v : Byte) (s : State) : Host.Outcome State Fault Refusal :=
  passInstruction 0xE9#8 .sbc (.immediate v) s

/-- SBC ZeroPage (`0xE5`, R217). -/
def execSbcZp (v : Byte) (s : State) : Host.Outcome State Fault Refusal :=
  passInstruction 0xE5#8 .sbc (.zeroPage v) s

/-- SBC ZeroPageX (`0xF5`, R217). -/
def execSbcZpx (v : Byte) (s : State) : Host.Outcome State Fault Refusal :=
  passInstruction 0xF5#8 .sbc (.zeroPageX v) s

/-- SBC Absolute (`0xED`, R217). -/
def execSbcAbs (a : Word) (s : State) : Host.Outcome State Fault Refusal :=
  passInstruction 0xED#8 .sbc (.absolute a) s

/-- SBC AbsoluteX (`0xFD`, R217). -/
def execSbcAbx (a : Word) (s : State) : Host.Outcome State Fault Refusal :=
  passInstruction 0xFD#8 .sbc (.absoluteX a) s

/-- SBC AbsoluteY (`0xF9`, R217). -/
def execSbcAby (a : Word) (s : State) : Host.Outcome State Fault Refusal :=
  passInstruction 0xF9#8 .sbc (.absoluteY a) s

/-- SBC IndexedIndirect (`0xE1`, R217). -/
def execSbcIzx (v : Byte) (s : State) : Host.Outcome State Fault Refusal :=
  passInstruction 0xE1#8 .sbc (.indexedIndirect v) s

/-- SBC IndirectIndexed (`0xF1`, R217). -/
def execSbcIzy (v : Byte) (s : State) : Host.Outcome State Fault Refusal :=
  passInstruction 0xF1#8 .sbc (.indirectIndexed v) s

/-- AND Immediate (`0x29`, R218). -/
def execAndImm (v : Byte) (s : State) : Host.Outcome State Fault Refusal :=
  passInstruction 0x29#8 .and (.immediate v) s

/-- AND ZeroPage (`0x25`, R218). -/
def execAndZp (v : Byte) (s : State) : Host.Outcome State Fault Refusal :=
  passInstruction 0x25#8 .and (.zeroPage v) s

/-- AND ZeroPageX (`0x35`, R218). -/
def execAndZpx (v : Byte) (s : State) : Host.Outcome State Fault Refusal :=
  passInstruction 0x35#8 .and (.zeroPageX v) s

/-- AND Absolute (`0x2D`, R218). -/
def execAndAbs (a : Word) (s : State) : Host.Outcome State Fault Refusal :=
  passInstruction 0x2D#8 .and (.absolute a) s

/-- AND AbsoluteX (`0x3D`, R218). -/
def execAndAbx (a : Word) (s : State) : Host.Outcome State Fault Refusal :=
  passInstruction 0x3D#8 .and (.absoluteX a) s

/-- AND AbsoluteY (`0x39`, R218). -/
def execAndAby (a : Word) (s : State) : Host.Outcome State Fault Refusal :=
  passInstruction 0x39#8 .and (.absoluteY a) s

/-- AND IndexedIndirect (`0x21`, R218). -/
def execAndIzx (v : Byte) (s : State) : Host.Outcome State Fault Refusal :=
  passInstruction 0x21#8 .and (.indexedIndirect v) s

/-- AND IndirectIndexed (`0x31`, R218). -/
def execAndIzy (v : Byte) (s : State) : Host.Outcome State Fault Refusal :=
  passInstruction 0x31#8 .and (.indirectIndexed v) s

/-- ORA Immediate (`0x09`, R219). -/
def execOraImm (v : Byte) (s : State) : Host.Outcome State Fault Refusal :=
  passInstruction 0x09#8 .ora (.immediate v) s

/-- ORA ZeroPage (`0x05`, R219). -/
def execOraZp (v : Byte) (s : State) : Host.Outcome State Fault Refusal :=
  passInstruction 0x05#8 .ora (.zeroPage v) s

/-- ORA ZeroPageX (`0x15`, R219). -/
def execOraZpx (v : Byte) (s : State) : Host.Outcome State Fault Refusal :=
  passInstruction 0x15#8 .ora (.zeroPageX v) s

/-- ORA Absolute (`0x0D`, R219). -/
def execOraAbs (a : Word) (s : State) : Host.Outcome State Fault Refusal :=
  passInstruction 0x0D#8 .ora (.absolute a) s

/-- ORA AbsoluteX (`0x1D`, R219). -/
def execOraAbx (a : Word) (s : State) : Host.Outcome State Fault Refusal :=
  passInstruction 0x1D#8 .ora (.absoluteX a) s

/-- ORA AbsoluteY (`0x19`, R219). -/
def execOraAby (a : Word) (s : State) : Host.Outcome State Fault Refusal :=
  passInstruction 0x19#8 .ora (.absoluteY a) s

/-- ORA IndexedIndirect (`0x01`, R219). -/
def execOraIzx (v : Byte) (s : State) : Host.Outcome State Fault Refusal :=
  passInstruction 0x01#8 .ora (.indexedIndirect v) s

/-- ORA IndirectIndexed (`0x11`, R219). -/
def execOraIzy (v : Byte) (s : State) : Host.Outcome State Fault Refusal :=
  passInstruction 0x11#8 .ora (.indirectIndexed v) s

/-- EOR Immediate (`0x49`, R220). -/
def execEorImm (v : Byte) (s : State) : Host.Outcome State Fault Refusal :=
  passInstruction 0x49#8 .eor (.immediate v) s

/-- EOR ZeroPage (`0x45`, R220). -/
def execEorZp (v : Byte) (s : State) : Host.Outcome State Fault Refusal :=
  passInstruction 0x45#8 .eor (.zeroPage v) s

/-- EOR ZeroPageX (`0x55`, R220). -/
def execEorZpx (v : Byte) (s : State) : Host.Outcome State Fault Refusal :=
  passInstruction 0x55#8 .eor (.zeroPageX v) s

/-- EOR Absolute (`0x4D`, R220). -/
def execEorAbs (a : Word) (s : State) : Host.Outcome State Fault Refusal :=
  passInstruction 0x4D#8 .eor (.absolute a) s

/-- EOR AbsoluteX (`0x5D`, R220). -/
def execEorAbx (a : Word) (s : State) : Host.Outcome State Fault Refusal :=
  passInstruction 0x5D#8 .eor (.absoluteX a) s

/-- EOR AbsoluteY (`0x59`, R220). -/
def execEorAby (a : Word) (s : State) : Host.Outcome State Fault Refusal :=
  passInstruction 0x59#8 .eor (.absoluteY a) s

/-- EOR IndexedIndirect (`0x41`, R220). -/
def execEorIzx (v : Byte) (s : State) : Host.Outcome State Fault Refusal :=
  passInstruction 0x41#8 .eor (.indexedIndirect v) s

/-- EOR IndirectIndexed (`0x51`, R220). -/
def execEorIzy (v : Byte) (s : State) : Host.Outcome State Fault Refusal :=
  passInstruction 0x51#8 .eor (.indirectIndexed v) s

/-- CMP Immediate (`0xC9`, R221). -/
def execCmpImm (v : Byte) (s : State) : Host.Outcome State Fault Refusal :=
  passInstruction 0xC9#8 .cmp (.immediate v) s

/-- CMP ZeroPage (`0xC5`, R221). -/
def execCmpZp (v : Byte) (s : State) : Host.Outcome State Fault Refusal :=
  passInstruction 0xC5#8 .cmp (.zeroPage v) s

/-- CMP ZeroPageX (`0xD5`, R221). -/
def execCmpZpx (v : Byte) (s : State) : Host.Outcome State Fault Refusal :=
  passInstruction 0xD5#8 .cmp (.zeroPageX v) s

/-- CMP Absolute (`0xCD`, R221). -/
def execCmpAbs (a : Word) (s : State) : Host.Outcome State Fault Refusal :=
  passInstruction 0xCD#8 .cmp (.absolute a) s

/-- CMP AbsoluteX (`0xDD`, R221). -/
def execCmpAbx (a : Word) (s : State) : Host.Outcome State Fault Refusal :=
  passInstruction 0xDD#8 .cmp (.absoluteX a) s

/-- CMP AbsoluteY (`0xD9`, R221). -/
def execCmpAby (a : Word) (s : State) : Host.Outcome State Fault Refusal :=
  passInstruction 0xD9#8 .cmp (.absoluteY a) s

/-- CMP IndexedIndirect (`0xC1`, R221). -/
def execCmpIzx (v : Byte) (s : State) : Host.Outcome State Fault Refusal :=
  passInstruction 0xC1#8 .cmp (.indexedIndirect v) s

/-- CMP IndirectIndexed (`0xD1`, R221). -/
def execCmpIzy (v : Byte) (s : State) : Host.Outcome State Fault Refusal :=
  passInstruction 0xD1#8 .cmp (.indirectIndexed v) s

/-- CPX Immediate (`0xE0`, R222). -/
def execCpxImm (v : Byte) (s : State) : Host.Outcome State Fault Refusal :=
  passInstruction 0xE0#8 .cpx (.immediate v) s

/-- CPX ZeroPage (`0xE4`, R222). -/
def execCpxZp (v : Byte) (s : State) : Host.Outcome State Fault Refusal :=
  passInstruction 0xE4#8 .cpx (.zeroPage v) s

/-- CPX Absolute (`0xEC`, R222). -/
def execCpxAbs (a : Word) (s : State) : Host.Outcome State Fault Refusal :=
  passInstruction 0xEC#8 .cpx (.absolute a) s

/-- CPY Immediate (`0xC0`, R223). -/
def execCpyImm (v : Byte) (s : State) : Host.Outcome State Fault Refusal :=
  passInstruction 0xC0#8 .cpy (.immediate v) s

/-- CPY ZeroPage (`0xC4`, R223). -/
def execCpyZp (v : Byte) (s : State) : Host.Outcome State Fault Refusal :=
  passInstruction 0xC4#8 .cpy (.zeroPage v) s

/-- CPY Absolute (`0xCC`, R223). -/
def execCpyAbs (a : Word) (s : State) : Host.Outcome State Fault Refusal :=
  passInstruction 0xCC#8 .cpy (.absolute a) s

/-- BIT ZeroPage (`0x24`, R224). -/
def execBitZp (v : Byte) (s : State) : Host.Outcome State Fault Refusal :=
  passInstruction 0x24#8 .bit (.zeroPage v) s

/-- BIT Absolute (`0x2C`, R224). -/
def execBitAbs (a : Word) (s : State) : Host.Outcome State Fault Refusal :=
  passInstruction 0x2C#8 .bit (.absolute a) s

end Sys2Proof.Machine
end

