-- ==== Sys2Proof/Machine/Branch.lean ====
section
/-! DEFINITION. The meanings of the conditional branch mnemonics (file 45, R235 to R242): the block passes the instruction, and executes nothing (R6). No target is computed and no branch is taken (R165). -/

namespace Sys2Proof.Machine

/-- BCC Relative (`0x90`, R235). -/
def execBccRel (k : Int) (s : State) : Host.Outcome State Fault Refusal :=
  passInstruction 0x90#8 .bcc (.relative k) s

/-- BCS Relative (`0xB0`, R236). -/
def execBcsRel (k : Int) (s : State) : Host.Outcome State Fault Refusal :=
  passInstruction 0xB0#8 .bcs (.relative k) s

/-- BEQ Relative (`0xF0`, R237). -/
def execBeqRel (k : Int) (s : State) : Host.Outcome State Fault Refusal :=
  passInstruction 0xF0#8 .beq (.relative k) s

/-- BMI Relative (`0x30`, R238). -/
def execBmiRel (k : Int) (s : State) : Host.Outcome State Fault Refusal :=
  passInstruction 0x30#8 .bmi (.relative k) s

/-- BNE Relative (`0xD0`, R239). -/
def execBneRel (k : Int) (s : State) : Host.Outcome State Fault Refusal :=
  passInstruction 0xD0#8 .bne (.relative k) s

/-- BPL Relative (`0x10`, R240). -/
def execBplRel (k : Int) (s : State) : Host.Outcome State Fault Refusal :=
  passInstruction 0x10#8 .bpl (.relative k) s

/-- BVC Relative (`0x50`, R241). -/
def execBvcRel (k : Int) (s : State) : Host.Outcome State Fault Refusal :=
  passInstruction 0x50#8 .bvc (.relative k) s

/-- BVS Relative (`0x70`, R242). -/
def execBvsRel (k : Int) (s : State) : Host.Outcome State Fault Refusal :=
  passInstruction 0x70#8 .bvs (.relative k) s

end Sys2Proof.Machine
end

