-- ==== Sys2Proof/Machine/FlagOps.lean ====
section
/-! DEFINITION. The meanings of the flag mnemonics (file 46, R249 to R255): the block passes the instruction, and executes nothing (R6). The decoded processor has the flags; the block has none (R29, R96, R310). -/

namespace Sys2Proof.Machine

/-- CLC Implied (`0x18`, R249). -/
def execClc (s : State) : Host.Outcome State Fault Refusal :=
  passInstruction 0x18#8 .clc .implied s

/-- CLD Implied (`0xD8`, R250). -/
def execCld (s : State) : Host.Outcome State Fault Refusal :=
  passInstruction 0xD8#8 .cld .implied s

/-- CLI Implied (`0x58`, R251). -/
def execCli (s : State) : Host.Outcome State Fault Refusal :=
  passInstruction 0x58#8 .cli .implied s

/-- CLV Implied (`0xB8`, R252). -/
def execClv (s : State) : Host.Outcome State Fault Refusal :=
  passInstruction 0xB8#8 .clv .implied s

/-- SEC Implied (`0x38`, R253). -/
def execSec (s : State) : Host.Outcome State Fault Refusal :=
  passInstruction 0x38#8 .sec .implied s

/-- SED Implied (`0xF8`, R254). -/
def execSed (s : State) : Host.Outcome State Fault Refusal :=
  passInstruction 0xF8#8 .sed .implied s

/-- SEI Implied (`0x78`, R255). -/
def execSei (s : State) : Host.Outcome State Fault Refusal :=
  passInstruction 0x78#8 .sei .implied s

end Sys2Proof.Machine
end

