-- ==== Sys2Proof/Machine/JumpSystem.lean ====
section
/-! DEFINITION. The meanings of the jump, subroutine, interrupt-related and no-operation mnemonics (file 46, R243 to R248): the block passes the instruction, and executes nothing (R6). The walk passes them like any other instruction (R165), and BRK and RTI raise nothing (R311). -/

namespace Sys2Proof.Machine

/-- JMP Absolute (`0x4C`, R243). -/
def execJmpAbs (a : Word) (s : State) : Host.Outcome State Fault Refusal :=
  passInstruction 0x4C#8 .jmp (.absolute a) s

/-- JMP Indirect (`0x6C`, R243). -/
def execJmpInd (a : Word) (s : State) : Host.Outcome State Fault Refusal :=
  passInstruction 0x6C#8 .jmp (.indirect a) s

/-- JSR Absolute (`0x20`, R244). -/
def execJsrAbs (a : Word) (s : State) : Host.Outcome State Fault Refusal :=
  passInstruction 0x20#8 .jsr (.absolute a) s

/-- RTS Implied (`0x60`, R245). -/
def execRts (s : State) : Host.Outcome State Fault Refusal :=
  passInstruction 0x60#8 .rts .implied s

/-- RTI Implied (`0x40`, R246). -/
def execRti (s : State) : Host.Outcome State Fault Refusal :=
  passInstruction 0x40#8 .rti .implied s

/-- BRK Implied (`0x00`, R247). -/
def execBrk (s : State) : Host.Outcome State Fault Refusal :=
  passInstruction 0x00#8 .brk .implied s

/-- NOP Implied (`0xEA`, R248). -/
def execNop (s : State) : Host.Outcome State Fault Refusal :=
  passInstruction 0xEA#8 .nop .implied s

end Sys2Proof.Machine
end

