-- ==== Sys2Proof/Machine/LoadStore.lean ====
section
/-! DEFINITION. The meanings of the load and store mnemonics (file 41, R200 to R205): the block passes the instruction, and executes nothing (R6). -/

namespace Sys2Proof.Machine

/-- LDA Immediate (`0xA9`, R200). -/
def execLdaImm (v : Byte) (s : State) : Host.Outcome State Fault Refusal :=
  passInstruction 0xA9#8 .lda (.immediate v) s

/-- LDA ZeroPage (`0xA5`, R200). -/
def execLdaZp (v : Byte) (s : State) : Host.Outcome State Fault Refusal :=
  passInstruction 0xA5#8 .lda (.zeroPage v) s

/-- LDA ZeroPageX (`0xB5`, R200). -/
def execLdaZpx (v : Byte) (s : State) : Host.Outcome State Fault Refusal :=
  passInstruction 0xB5#8 .lda (.zeroPageX v) s

/-- LDA Absolute (`0xAD`, R200). -/
def execLdaAbs (a : Word) (s : State) : Host.Outcome State Fault Refusal :=
  passInstruction 0xAD#8 .lda (.absolute a) s

/-- LDA AbsoluteX (`0xBD`, R200). -/
def execLdaAbx (a : Word) (s : State) : Host.Outcome State Fault Refusal :=
  passInstruction 0xBD#8 .lda (.absoluteX a) s

/-- LDA AbsoluteY (`0xB9`, R200). -/
def execLdaAby (a : Word) (s : State) : Host.Outcome State Fault Refusal :=
  passInstruction 0xB9#8 .lda (.absoluteY a) s

/-- LDA IndexedIndirect (`0xA1`, R200). -/
def execLdaIzx (v : Byte) (s : State) : Host.Outcome State Fault Refusal :=
  passInstruction 0xA1#8 .lda (.indexedIndirect v) s

/-- LDA IndirectIndexed (`0xB1`, R200). -/
def execLdaIzy (v : Byte) (s : State) : Host.Outcome State Fault Refusal :=
  passInstruction 0xB1#8 .lda (.indirectIndexed v) s

/-- LDX Immediate (`0xA2`, R201). -/
def execLdxImm (v : Byte) (s : State) : Host.Outcome State Fault Refusal :=
  passInstruction 0xA2#8 .ldx (.immediate v) s

/-- LDX ZeroPage (`0xA6`, R201). -/
def execLdxZp (v : Byte) (s : State) : Host.Outcome State Fault Refusal :=
  passInstruction 0xA6#8 .ldx (.zeroPage v) s

/-- LDX ZeroPageY (`0xB6`, R201). -/
def execLdxZpy (v : Byte) (s : State) : Host.Outcome State Fault Refusal :=
  passInstruction 0xB6#8 .ldx (.zeroPageY v) s

/-- LDX Absolute (`0xAE`, R201). -/
def execLdxAbs (a : Word) (s : State) : Host.Outcome State Fault Refusal :=
  passInstruction 0xAE#8 .ldx (.absolute a) s

/-- LDX AbsoluteY (`0xBE`, R201). -/
def execLdxAby (a : Word) (s : State) : Host.Outcome State Fault Refusal :=
  passInstruction 0xBE#8 .ldx (.absoluteY a) s

/-- LDY Immediate (`0xA0`, R202). -/
def execLdyImm (v : Byte) (s : State) : Host.Outcome State Fault Refusal :=
  passInstruction 0xA0#8 .ldy (.immediate v) s

/-- LDY ZeroPage (`0xA4`, R202). -/
def execLdyZp (v : Byte) (s : State) : Host.Outcome State Fault Refusal :=
  passInstruction 0xA4#8 .ldy (.zeroPage v) s

/-- LDY ZeroPageX (`0xB4`, R202). -/
def execLdyZpx (v : Byte) (s : State) : Host.Outcome State Fault Refusal :=
  passInstruction 0xB4#8 .ldy (.zeroPageX v) s

/-- LDY Absolute (`0xAC`, R202). -/
def execLdyAbs (a : Word) (s : State) : Host.Outcome State Fault Refusal :=
  passInstruction 0xAC#8 .ldy (.absolute a) s

/-- LDY AbsoluteX (`0xBC`, R202). -/
def execLdyAbx (a : Word) (s : State) : Host.Outcome State Fault Refusal :=
  passInstruction 0xBC#8 .ldy (.absoluteX a) s

/-- STA ZeroPage (`0x85`, R203). -/
def execStaZp (v : Byte) (s : State) : Host.Outcome State Fault Refusal :=
  passInstruction 0x85#8 .sta (.zeroPage v) s

/-- STA ZeroPageX (`0x95`, R203). -/
def execStaZpx (v : Byte) (s : State) : Host.Outcome State Fault Refusal :=
  passInstruction 0x95#8 .sta (.zeroPageX v) s

/-- STA Absolute (`0x8D`, R203). -/
def execStaAbs (a : Word) (s : State) : Host.Outcome State Fault Refusal :=
  passInstruction 0x8D#8 .sta (.absolute a) s

/-- STA AbsoluteX (`0x9D`, R203). -/
def execStaAbx (a : Word) (s : State) : Host.Outcome State Fault Refusal :=
  passInstruction 0x9D#8 .sta (.absoluteX a) s

/-- STA AbsoluteY (`0x99`, R203). -/
def execStaAby (a : Word) (s : State) : Host.Outcome State Fault Refusal :=
  passInstruction 0x99#8 .sta (.absoluteY a) s

/-- STA IndexedIndirect (`0x81`, R203). -/
def execStaIzx (v : Byte) (s : State) : Host.Outcome State Fault Refusal :=
  passInstruction 0x81#8 .sta (.indexedIndirect v) s

/-- STA IndirectIndexed (`0x91`, R203). -/
def execStaIzy (v : Byte) (s : State) : Host.Outcome State Fault Refusal :=
  passInstruction 0x91#8 .sta (.indirectIndexed v) s

/-- STX ZeroPage (`0x86`, R204). -/
def execStxZp (v : Byte) (s : State) : Host.Outcome State Fault Refusal :=
  passInstruction 0x86#8 .stx (.zeroPage v) s

/-- STX ZeroPageY (`0x96`, R204). -/
def execStxZpy (v : Byte) (s : State) : Host.Outcome State Fault Refusal :=
  passInstruction 0x96#8 .stx (.zeroPageY v) s

/-- STX Absolute (`0x8E`, R204). -/
def execStxAbs (a : Word) (s : State) : Host.Outcome State Fault Refusal :=
  passInstruction 0x8E#8 .stx (.absolute a) s

/-- STY ZeroPage (`0x84`, R205). -/
def execStyZp (v : Byte) (s : State) : Host.Outcome State Fault Refusal :=
  passInstruction 0x84#8 .sty (.zeroPage v) s

/-- STY ZeroPageX (`0x94`, R205). -/
def execStyZpx (v : Byte) (s : State) : Host.Outcome State Fault Refusal :=
  passInstruction 0x94#8 .sty (.zeroPageX v) s

/-- STY Absolute (`0x8C`, R205). -/
def execStyAbs (a : Word) (s : State) : Host.Outcome State Fault Refusal :=
  passInstruction 0x8C#8 .sty (.absolute a) s

end Sys2Proof.Machine
end

