-- ==== Sys2Proof/Machine/ShiftIncDec.lean ====
section
/-! DEFINITION. The meanings of the shift, rotate, increment and decrement mnemonics (file 44, R225 to R234): the block passes the instruction, and executes nothing (R6). -/

namespace Sys2Proof.Machine

/-- ASL ZeroPage (`0x06`, R225). -/
def execAslZp (v : Byte) (s : State) : Host.Outcome State Fault Refusal :=
  passInstruction 0x06#8 .asl (.zeroPage v) s

/-- ASL ZeroPageX (`0x16`, R225). -/
def execAslZpx (v : Byte) (s : State) : Host.Outcome State Fault Refusal :=
  passInstruction 0x16#8 .asl (.zeroPageX v) s

/-- ASL Absolute (`0x0E`, R225). -/
def execAslAbs (a : Word) (s : State) : Host.Outcome State Fault Refusal :=
  passInstruction 0x0E#8 .asl (.absolute a) s

/-- ASL AbsoluteX (`0x1E`, R225). -/
def execAslAbx (a : Word) (s : State) : Host.Outcome State Fault Refusal :=
  passInstruction 0x1E#8 .asl (.absoluteX a) s

/-- ASL Accumulator (`0x0A`, R225). -/
def execAslAcc (s : State) : Host.Outcome State Fault Refusal :=
  passInstruction 0x0A#8 .asl .accumulator s

/-- LSR ZeroPage (`0x46`, R226). -/
def execLsrZp (v : Byte) (s : State) : Host.Outcome State Fault Refusal :=
  passInstruction 0x46#8 .lsr (.zeroPage v) s

/-- LSR ZeroPageX (`0x56`, R226). -/
def execLsrZpx (v : Byte) (s : State) : Host.Outcome State Fault Refusal :=
  passInstruction 0x56#8 .lsr (.zeroPageX v) s

/-- LSR Absolute (`0x4E`, R226). -/
def execLsrAbs (a : Word) (s : State) : Host.Outcome State Fault Refusal :=
  passInstruction 0x4E#8 .lsr (.absolute a) s

/-- LSR AbsoluteX (`0x5E`, R226). -/
def execLsrAbx (a : Word) (s : State) : Host.Outcome State Fault Refusal :=
  passInstruction 0x5E#8 .lsr (.absoluteX a) s

/-- LSR Accumulator (`0x4A`, R226). -/
def execLsrAcc (s : State) : Host.Outcome State Fault Refusal :=
  passInstruction 0x4A#8 .lsr .accumulator s

/-- ROL ZeroPage (`0x26`, R227). -/
def execRolZp (v : Byte) (s : State) : Host.Outcome State Fault Refusal :=
  passInstruction 0x26#8 .rol (.zeroPage v) s

/-- ROL ZeroPageX (`0x36`, R227). -/
def execRolZpx (v : Byte) (s : State) : Host.Outcome State Fault Refusal :=
  passInstruction 0x36#8 .rol (.zeroPageX v) s

/-- ROL Absolute (`0x2E`, R227). -/
def execRolAbs (a : Word) (s : State) : Host.Outcome State Fault Refusal :=
  passInstruction 0x2E#8 .rol (.absolute a) s

/-- ROL AbsoluteX (`0x3E`, R227). -/
def execRolAbx (a : Word) (s : State) : Host.Outcome State Fault Refusal :=
  passInstruction 0x3E#8 .rol (.absoluteX a) s

/-- ROL Accumulator (`0x2A`, R227). -/
def execRolAcc (s : State) : Host.Outcome State Fault Refusal :=
  passInstruction 0x2A#8 .rol .accumulator s

/-- ROR ZeroPage (`0x66`, R228). -/
def execRorZp (v : Byte) (s : State) : Host.Outcome State Fault Refusal :=
  passInstruction 0x66#8 .ror (.zeroPage v) s

/-- ROR ZeroPageX (`0x76`, R228). -/
def execRorZpx (v : Byte) (s : State) : Host.Outcome State Fault Refusal :=
  passInstruction 0x76#8 .ror (.zeroPageX v) s

/-- ROR Absolute (`0x6E`, R228). -/
def execRorAbs (a : Word) (s : State) : Host.Outcome State Fault Refusal :=
  passInstruction 0x6E#8 .ror (.absolute a) s

/-- ROR AbsoluteX (`0x7E`, R228). -/
def execRorAbx (a : Word) (s : State) : Host.Outcome State Fault Refusal :=
  passInstruction 0x7E#8 .ror (.absoluteX a) s

/-- ROR Accumulator (`0x6A`, R228). -/
def execRorAcc (s : State) : Host.Outcome State Fault Refusal :=
  passInstruction 0x6A#8 .ror .accumulator s

/-- INC ZeroPage (`0xE6`, R229). -/
def execIncZp (v : Byte) (s : State) : Host.Outcome State Fault Refusal :=
  passInstruction 0xE6#8 .inc (.zeroPage v) s

/-- INC ZeroPageX (`0xF6`, R229). -/
def execIncZpx (v : Byte) (s : State) : Host.Outcome State Fault Refusal :=
  passInstruction 0xF6#8 .inc (.zeroPageX v) s

/-- INC Absolute (`0xEE`, R229). -/
def execIncAbs (a : Word) (s : State) : Host.Outcome State Fault Refusal :=
  passInstruction 0xEE#8 .inc (.absolute a) s

/-- INC AbsoluteX (`0xFE`, R229). -/
def execIncAbx (a : Word) (s : State) : Host.Outcome State Fault Refusal :=
  passInstruction 0xFE#8 .inc (.absoluteX a) s

/-- DEC ZeroPage (`0xC6`, R230). -/
def execDecZp (v : Byte) (s : State) : Host.Outcome State Fault Refusal :=
  passInstruction 0xC6#8 .dec (.zeroPage v) s

/-- DEC ZeroPageX (`0xD6`, R230). -/
def execDecZpx (v : Byte) (s : State) : Host.Outcome State Fault Refusal :=
  passInstruction 0xD6#8 .dec (.zeroPageX v) s

/-- DEC Absolute (`0xCE`, R230). -/
def execDecAbs (a : Word) (s : State) : Host.Outcome State Fault Refusal :=
  passInstruction 0xCE#8 .dec (.absolute a) s

/-- DEC AbsoluteX (`0xDE`, R230). -/
def execDecAbx (a : Word) (s : State) : Host.Outcome State Fault Refusal :=
  passInstruction 0xDE#8 .dec (.absoluteX a) s

/-- INX Implied (`0xE8`, R231). -/
def execInx (s : State) : Host.Outcome State Fault Refusal :=
  passInstruction 0xE8#8 .inx .implied s

/-- INY Implied (`0xC8`, R232). -/
def execIny (s : State) : Host.Outcome State Fault Refusal :=
  passInstruction 0xC8#8 .iny .implied s

/-- DEX Implied (`0xCA`, R233). -/
def execDex (s : State) : Host.Outcome State Fault Refusal :=
  passInstruction 0xCA#8 .dex .implied s

/-- DEY Implied (`0x88`, R234). -/
def execDey (s : State) : Host.Outcome State Fault Refusal :=
  passInstruction 0x88#8 .dey .implied s

end Sys2Proof.Machine
end

