-- ==== Sys2Proof/Machine/TransferStack.lean ====
section
/-! DEFINITION. The meanings of the register-transfer and stack mnemonics (file 42, R206 to R215): the block passes the instruction, and executes nothing (R6). -/

namespace Sys2Proof.Machine

/-- TAX Implied (`0xAA`, R206). -/
def execTax (s : State) : Host.Outcome State Fault Refusal :=
  passInstruction 0xAA#8 .tax .implied s

/-- TAY Implied (`0xA8`, R207). -/
def execTay (s : State) : Host.Outcome State Fault Refusal :=
  passInstruction 0xA8#8 .tay .implied s

/-- TSX Implied (`0xBA`, R208). -/
def execTsx (s : State) : Host.Outcome State Fault Refusal :=
  passInstruction 0xBA#8 .tsx .implied s

/-- TXA Implied (`0x8A`, R209). -/
def execTxa (s : State) : Host.Outcome State Fault Refusal :=
  passInstruction 0x8A#8 .txa .implied s

/-- TXS Implied (`0x9A`, R210). -/
def execTxs (s : State) : Host.Outcome State Fault Refusal :=
  passInstruction 0x9A#8 .txs .implied s

/-- TYA Implied (`0x98`, R211). -/
def execTya (s : State) : Host.Outcome State Fault Refusal :=
  passInstruction 0x98#8 .tya .implied s

/-- PHA Implied (`0x48`, R212). -/
def execPha (s : State) : Host.Outcome State Fault Refusal :=
  passInstruction 0x48#8 .pha .implied s

/-- PHP Implied (`0x08`, R213). -/
def execPhp (s : State) : Host.Outcome State Fault Refusal :=
  passInstruction 0x08#8 .php .implied s

/-- PLA Implied (`0x68`, R214). -/
def execPla (s : State) : Host.Outcome State Fault Refusal :=
  passInstruction 0x68#8 .pla .implied s

/-- PLP Implied (`0x28`, R215). -/
def execPlp (s : State) : Host.Outcome State Fault Refusal :=
  passInstruction 0x28#8 .plp .implied s

end Sys2Proof.Machine
end

