-- ==== Sys2Proof/Machine/Dispatch.lean ====
section
/-! DEFINITION. exec: one arm per constructor of Instr, each the call of its meaning. -/

namespace Sys2Proof.Machine

def exec (i : Instr) (s : State) : Host.Outcome State Fault Refusal :=
  match i with
  | .ldaImm v => Sys2Proof.Machine.execLdaImm v s
  | .ldaZp v => Sys2Proof.Machine.execLdaZp v s
  | .ldaZpx v => Sys2Proof.Machine.execLdaZpx v s
  | .ldaAbs a => Sys2Proof.Machine.execLdaAbs a s
  | .ldaAbx a => Sys2Proof.Machine.execLdaAbx a s
  | .ldaAby a => Sys2Proof.Machine.execLdaAby a s
  | .ldaIzx v => Sys2Proof.Machine.execLdaIzx v s
  | .ldaIzy v => Sys2Proof.Machine.execLdaIzy v s
  | .ldxImm v => Sys2Proof.Machine.execLdxImm v s
  | .ldxZp v => Sys2Proof.Machine.execLdxZp v s
  | .ldxZpy v => Sys2Proof.Machine.execLdxZpy v s
  | .ldxAbs a => Sys2Proof.Machine.execLdxAbs a s
  | .ldxAby a => Sys2Proof.Machine.execLdxAby a s
  | .ldyImm v => Sys2Proof.Machine.execLdyImm v s
  | .ldyZp v => Sys2Proof.Machine.execLdyZp v s
  | .ldyZpx v => Sys2Proof.Machine.execLdyZpx v s
  | .ldyAbs a => Sys2Proof.Machine.execLdyAbs a s
  | .ldyAbx a => Sys2Proof.Machine.execLdyAbx a s
  | .staZp v => Sys2Proof.Machine.execStaZp v s
  | .staZpx v => Sys2Proof.Machine.execStaZpx v s
  | .staAbs a => Sys2Proof.Machine.execStaAbs a s
  | .staAbx a => Sys2Proof.Machine.execStaAbx a s
  | .staAby a => Sys2Proof.Machine.execStaAby a s
  | .staIzx v => Sys2Proof.Machine.execStaIzx v s
  | .staIzy v => Sys2Proof.Machine.execStaIzy v s
  | .stxZp v => Sys2Proof.Machine.execStxZp v s
  | .stxZpy v => Sys2Proof.Machine.execStxZpy v s
  | .stxAbs a => Sys2Proof.Machine.execStxAbs a s
  | .styZp v => Sys2Proof.Machine.execStyZp v s
  | .styZpx v => Sys2Proof.Machine.execStyZpx v s
  | .styAbs a => Sys2Proof.Machine.execStyAbs a s
  | .tax => Sys2Proof.Machine.execTax s
  | .tay => Sys2Proof.Machine.execTay s
  | .tsx => Sys2Proof.Machine.execTsx s
  | .txa => Sys2Proof.Machine.execTxa s
  | .txs => Sys2Proof.Machine.execTxs s
  | .tya => Sys2Proof.Machine.execTya s
  | .pha => Sys2Proof.Machine.execPha s
  | .php => Sys2Proof.Machine.execPhp s
  | .pla => Sys2Proof.Machine.execPla s
  | .plp => Sys2Proof.Machine.execPlp s
  | .adcImm v => Sys2Proof.Machine.execAdcImm v s
  | .adcZp v => Sys2Proof.Machine.execAdcZp v s
  | .adcZpx v => Sys2Proof.Machine.execAdcZpx v s
  | .adcAbs a => Sys2Proof.Machine.execAdcAbs a s
  | .adcAbx a => Sys2Proof.Machine.execAdcAbx a s
  | .adcAby a => Sys2Proof.Machine.execAdcAby a s
  | .adcIzx v => Sys2Proof.Machine.execAdcIzx v s
  | .adcIzy v => Sys2Proof.Machine.execAdcIzy v s
  | .sbcImm v => Sys2Proof.Machine.execSbcImm v s
  | .sbcZp v => Sys2Proof.Machine.execSbcZp v s
  | .sbcZpx v => Sys2Proof.Machine.execSbcZpx v s
  | .sbcAbs a => Sys2Proof.Machine.execSbcAbs a s
  | .sbcAbx a => Sys2Proof.Machine.execSbcAbx a s
  | .sbcAby a => Sys2Proof.Machine.execSbcAby a s
  | .sbcIzx v => Sys2Proof.Machine.execSbcIzx v s
  | .sbcIzy v => Sys2Proof.Machine.execSbcIzy v s
  | .andImm v => Sys2Proof.Machine.execAndImm v s
  | .andZp v => Sys2Proof.Machine.execAndZp v s
  | .andZpx v => Sys2Proof.Machine.execAndZpx v s
  | .andAbs a => Sys2Proof.Machine.execAndAbs a s
  | .andAbx a => Sys2Proof.Machine.execAndAbx a s
  | .andAby a => Sys2Proof.Machine.execAndAby a s
  | .andIzx v => Sys2Proof.Machine.execAndIzx v s
  | .andIzy v => Sys2Proof.Machine.execAndIzy v s
  | .oraImm v => Sys2Proof.Machine.execOraImm v s
  | .oraZp v => Sys2Proof.Machine.execOraZp v s
  | .oraZpx v => Sys2Proof.Machine.execOraZpx v s
  | .oraAbs a => Sys2Proof.Machine.execOraAbs a s
  | .oraAbx a => Sys2Proof.Machine.execOraAbx a s
  | .oraAby a => Sys2Proof.Machine.execOraAby a s
  | .oraIzx v => Sys2Proof.Machine.execOraIzx v s
  | .oraIzy v => Sys2Proof.Machine.execOraIzy v s
  | .eorImm v => Sys2Proof.Machine.execEorImm v s
  | .eorZp v => Sys2Proof.Machine.execEorZp v s
  | .eorZpx v => Sys2Proof.Machine.execEorZpx v s
  | .eorAbs a => Sys2Proof.Machine.execEorAbs a s
  | .eorAbx a => Sys2Proof.Machine.execEorAbx a s
  | .eorAby a => Sys2Proof.Machine.execEorAby a s
  | .eorIzx v => Sys2Proof.Machine.execEorIzx v s
  | .eorIzy v => Sys2Proof.Machine.execEorIzy v s
  | .cmpImm v => Sys2Proof.Machine.execCmpImm v s
  | .cmpZp v => Sys2Proof.Machine.execCmpZp v s
  | .cmpZpx v => Sys2Proof.Machine.execCmpZpx v s
  | .cmpAbs a => Sys2Proof.Machine.execCmpAbs a s
  | .cmpAbx a => Sys2Proof.Machine.execCmpAbx a s
  | .cmpAby a => Sys2Proof.Machine.execCmpAby a s
  | .cmpIzx v => Sys2Proof.Machine.execCmpIzx v s
  | .cmpIzy v => Sys2Proof.Machine.execCmpIzy v s
  | .cpxImm v => Sys2Proof.Machine.execCpxImm v s
  | .cpxZp v => Sys2Proof.Machine.execCpxZp v s
  | .cpxAbs a => Sys2Proof.Machine.execCpxAbs a s
  | .cpyImm v => Sys2Proof.Machine.execCpyImm v s
  | .cpyZp v => Sys2Proof.Machine.execCpyZp v s
  | .cpyAbs a => Sys2Proof.Machine.execCpyAbs a s
  | .bitZp v => Sys2Proof.Machine.execBitZp v s
  | .bitAbs a => Sys2Proof.Machine.execBitAbs a s
  | .aslZp v => Sys2Proof.Machine.execAslZp v s
  | .aslZpx v => Sys2Proof.Machine.execAslZpx v s
  | .aslAbs a => Sys2Proof.Machine.execAslAbs a s
  | .aslAbx a => Sys2Proof.Machine.execAslAbx a s
  | .aslAcc => Sys2Proof.Machine.execAslAcc s
  | .lsrZp v => Sys2Proof.Machine.execLsrZp v s
  | .lsrZpx v => Sys2Proof.Machine.execLsrZpx v s
  | .lsrAbs a => Sys2Proof.Machine.execLsrAbs a s
  | .lsrAbx a => Sys2Proof.Machine.execLsrAbx a s
  | .lsrAcc => Sys2Proof.Machine.execLsrAcc s
  | .rolZp v => Sys2Proof.Machine.execRolZp v s
  | .rolZpx v => Sys2Proof.Machine.execRolZpx v s
  | .rolAbs a => Sys2Proof.Machine.execRolAbs a s
  | .rolAbx a => Sys2Proof.Machine.execRolAbx a s
  | .rolAcc => Sys2Proof.Machine.execRolAcc s
  | .rorZp v => Sys2Proof.Machine.execRorZp v s
  | .rorZpx v => Sys2Proof.Machine.execRorZpx v s
  | .rorAbs a => Sys2Proof.Machine.execRorAbs a s
  | .rorAbx a => Sys2Proof.Machine.execRorAbx a s
  | .rorAcc => Sys2Proof.Machine.execRorAcc s
  | .incZp v => Sys2Proof.Machine.execIncZp v s
  | .incZpx v => Sys2Proof.Machine.execIncZpx v s
  | .incAbs a => Sys2Proof.Machine.execIncAbs a s
  | .incAbx a => Sys2Proof.Machine.execIncAbx a s
  | .decZp v => Sys2Proof.Machine.execDecZp v s
  | .decZpx v => Sys2Proof.Machine.execDecZpx v s
  | .decAbs a => Sys2Proof.Machine.execDecAbs a s
  | .decAbx a => Sys2Proof.Machine.execDecAbx a s
  | .inx => Sys2Proof.Machine.execInx s
  | .iny => Sys2Proof.Machine.execIny s
  | .dex => Sys2Proof.Machine.execDex s
  | .dey => Sys2Proof.Machine.execDey s
  | .bccRel k => Sys2Proof.Machine.execBccRel k s
  | .bcsRel k => Sys2Proof.Machine.execBcsRel k s
  | .beqRel k => Sys2Proof.Machine.execBeqRel k s
  | .bmiRel k => Sys2Proof.Machine.execBmiRel k s
  | .bneRel k => Sys2Proof.Machine.execBneRel k s
  | .bplRel k => Sys2Proof.Machine.execBplRel k s
  | .bvcRel k => Sys2Proof.Machine.execBvcRel k s
  | .bvsRel k => Sys2Proof.Machine.execBvsRel k s
  | .jmpAbs a => Sys2Proof.Machine.execJmpAbs a s
  | .jmpInd a => Sys2Proof.Machine.execJmpInd a s
  | .jsrAbs a => Sys2Proof.Machine.execJsrAbs a s
  | .rts => Sys2Proof.Machine.execRts s
  | .rti => Sys2Proof.Machine.execRti s
  | .brk => Sys2Proof.Machine.execBrk s
  | .nop => Sys2Proof.Machine.execNop s
  | .clc => Sys2Proof.Machine.execClc s
  | .cld => Sys2Proof.Machine.execCld s
  | .cli => Sys2Proof.Machine.execCli s
  | .clv => Sys2Proof.Machine.execClv s
  | .sec => Sys2Proof.Machine.execSec s
  | .sed => Sys2Proof.Machine.execSed s
  | .sei => Sys2Proof.Machine.execSei s

end Sys2Proof.Machine
end

