-- ==== Sys2Proof/Machine/Step.lean ====
section
/-! DEFINITION. One step of FSEQ (40_decode_operations R160): fetch, then run the decoded instruction. -/

namespace Sys2Proof.Machine

/-- One walk step: what `fetch` finds, a refusal, a stop, or an instruction to run. -/
def step (s : State) : Host.Outcome State Fault Refusal :=
  match fetch s with
  | .refuse r => .refused r
  | .stop st => .next (stop st s)
  | .run i => exec i s

/-- `s` with the instruction whose bits are `w` in the buffer at `off`, where the next step fetches (log 5). -/
def State.withFetchWord (s : State) (nbits w : Nat) : State := placeAtOff (tableBytes nbits w) s

end Sys2Proof.Machine
end

