-- ==== Sys2Proof/Machine/HostOps.lean ====
section
/-! DEFINITION. What the host can do to FSEQ between steps (40_decode_operations R166): pull reset (R340), load a buffer
and release reset (R347), reset and walk from an offset of its choosing (R43, R166). -/

namespace Sys2Proof.Machine

/-- The reset input: acts on FSEQ's registers only (R43, R340); the host's buffer and the build stay. -/
def hostReset (s : State) : State :=
  { s with off := 0, status := .running, trace := [] }

/-- The host presents `buf` and `L`, then releases reset (R44, R347). -/
def hostLoad (bs : List Byte) (s : State) : State :=
  hostReset { s with mem := writeBytes [] 0 bs, len := bs.length }

/-- "reset and walk `buf[a..]` for any `a` of its choosing" (R166): the suffix is the new buffer, so offsets count from
it and the host adds `a` (R43). -/
def hostRestartAt (a : Nat) (s : State) : State := hostLoad (suffixAt s a) s

end Sys2Proof.Machine
end

