-- ==== Sys2Proof/Machine/Operands.lean ====
section
/-! DEFINITION. The operand forms outside the stream: the ids of Operation and AddressingMode (10_state R23, R24) and the
16-bit port payload of each operand form with its reading back (R33). The operand forms in the stream are Decode.lean's. -/

namespace Sys2Proof

/-- Operations in the order of their ids: alphabetical (R23; 92 D5). -/
def allOperations : List Operation :=
  [.adc, .and, .asl, .bcc, .bcs, .beq, .bit, .bmi,
   .bne, .bpl, .brk, .bvc, .bvs, .clc, .cld, .cli,
   .clv, .cmp, .cpx, .cpy, .dec, .dex, .dey, .eor,
   .inc, .inx, .iny, .jmp, .jsr, .lda, .ldx, .ldy,
   .lsr, .nop, .ora, .pha, .php, .pla, .plp, .rol,
   .ror, .rti, .rts, .sbc, .sec, .sed, .sei, .sta,
   .stx, .sty, .tax, .tay, .tsx, .txa, .txs, .tya]

/-- The id of an Operation, 0 (ADC) to 55 (TYA) (R23). -/
def Operation.id : Operation → Nat
  | .adc => 0
  | .and => 1
  | .asl => 2
  | .bcc => 3
  | .bcs => 4
  | .beq => 5
  | .bit => 6
  | .bmi => 7
  | .bne => 8
  | .bpl => 9
  | .brk => 10
  | .bvc => 11
  | .bvs => 12
  | .clc => 13
  | .cld => 14
  | .cli => 15
  | .clv => 16
  | .cmp => 17
  | .cpx => 18
  | .cpy => 19
  | .dec => 20
  | .dex => 21
  | .dey => 22
  | .eor => 23
  | .inc => 24
  | .inx => 25
  | .iny => 26
  | .jmp => 27
  | .jsr => 28
  | .lda => 29
  | .ldx => 30
  | .ldy => 31
  | .lsr => 32
  | .nop => 33
  | .ora => 34
  | .pha => 35
  | .php => 36
  | .pla => 37
  | .plp => 38
  | .rol => 39
  | .ror => 40
  | .rti => 41
  | .rts => 42
  | .sbc => 43
  | .sec => 44
  | .sed => 45
  | .sei => 46
  | .sta => 47
  | .stx => 48
  | .sty => 49
  | .tax => 50
  | .tay => 51
  | .tsx => 52
  | .txa => 53
  | .txs => 54
  | .tya => 55

/-- The Operation with an id, if there is one. -/
def Operation.ofId (n : Nat) : Option Operation := allOperations[n]?

/-- Modes in the order of their ids: the order of the source's list (R24; 92 D6). -/
def allModes : List AddressingMode :=
  [.absolute, .absoluteX, .absoluteY, .accumulator, .immediate, .implied, .indexedIndirect,
   .indirect, .indirectIndexed, .relative, .zeroPage, .zeroPageX, .zeroPageY]

/-- The id of an AddressingMode, 0 to 12 (R24). -/
def AddressingMode.id : AddressingMode → Nat
  | .absolute => 0
  | .absoluteX => 1
  | .absoluteY => 2
  | .accumulator => 3
  | .immediate => 4
  | .implied => 5
  | .indexedIndirect => 6
  | .indirect => 7
  | .indirectIndexed => 8
  | .relative => 9
  | .zeroPage => 10
  | .zeroPageX => 11
  | .zeroPageY => 12

/-- The AddressingMode with an id; 13 to 15 never appear (R24; 92 D6). -/
def AddressingMode.ofId (n : Nat) : Option AddressingMode := allModes[n]?

/-- The `opnd` port of an operand (R33): a 16-bit payload as is, an 8-bit payload zero-extended, a Relative payload as
its raw byte zero-extended, 0 where there is no payload. -/
def Operand.portPayload : Operand → Word
  | .absolute v | .absoluteX v | .absoluteY v | .indirect v => v
  | .accumulator | .implied => 0#16
  | .relative s => (byteOf s).setWidth 16
  | .immediate v | .indexedIndirect v | .indirectIndexed v | .zeroPage v | .zeroPageX v | .zeroPageY v =>
    v.setWidth 16

/-- The operand a mode and an `opnd` value stand for; the Relative payload is read back as `sint8(opnd[7:0])` (R33). -/
def Operand.ofPort (m : AddressingMode) (v : Word) : Operand :=
  match m with
  | .absolute => .absolute v
  | .absoluteX => .absoluteX v
  | .absoluteY => .absoluteY v
  | .accumulator => .accumulator
  | .immediate => .immediate (lowByte v)
  | .implied => .implied
  | .indexedIndirect => .indexedIndirect (lowByte v)
  | .indirect => .indirect v
  | .indirectIndexed => .indirectIndexed (lowByte v)
  | .relative => .relative (sint8 (lowByte v))
  | .zeroPage => .zeroPage (lowByte v)
  | .zeroPageX => .zeroPageX (lowByte v)
  | .zeroPageY => .zeroPageY (lowByte v)

end Sys2Proof
end

