-- ==== Sys2Proof/Machine/Ports.lean ====
section
/-! DEFINITION. The bare decoder at its ports (10_state R31 to R35): a combinational function of three byte lanes and a
count. It holds no state and no reset acts on it (R42). -/

namespace Sys2Proof

/-- The inputs of R31: three lanes and the number of valid ones, 0 to 3. -/
structure PortIn where
  win0 : Byte
  win1 : Byte
  win2 : Byte
  avail : BitVec 2
  deriving DecidableEq, Repr

/-- The outputs of R33. -/
structure PortOut where
  valid : BitVec 1
  op : BitVec 6
  mode : BitVec 4
  opnd : BitVec 16
  size : BitVec 2
  deriving DecidableEq, Repr

/-- The abstract window of the lanes: `take(avail, [win0, win1, win2])` (R32). -/
def PortIn.lanes (p : PortIn) : List Byte := [p.win0, p.win1, p.win2].take p.avail.toNat

/-- How the host presents a window: its first three bytes, `avail = min(len(w), 3)` (R31). Lanes past the window are of
any value; here 0, and the outputs do not depend on them (R32). -/
def PortIn.ofWindow (w : List Byte) : PortIn :=
  ⟨byteAt w 0, byteAt w 1, byteAt w 2, BitVec.ofNat 2 (min w.length Config.windowLanes)⟩

/-- The packing of a decode result: R33 for `Some`, all ports 0 for `None` (R34). -/
def packPorts {T : OpcodeTable} : Option (InstructionOf T) → PortOut
  | none => ⟨0#1, 0#6, 0#4, 0#16, 0#2⟩
  | some i =>
    ⟨1#1, BitVec.ofNat 6 i.operation.id, BitVec.ofNat 4 i.operand.mode.id, i.operand.portPayload,
      BitVec.ofNat 2 i.size⟩

/-- The decoder's outputs for a table: the packing of the decode of the lanes' window (R42, R156). -/
def ifdOutputsWith (T : OpcodeTable) (p : PortIn) : PortOut := packPorts (decodeWith T p.lanes)

/-- The decoder's outputs. -/
def ifdOutputs (p : PortIn) : PortOut := ifdOutputsWith opcodeTable p

/-- `Instruction::operation()` at the ports: a read of `op` (R35). -/
def PortOut.operation (q : PortOut) : Option Operation := Operation.ofId q.op.toNat

/-- `Instruction::operand()` at the ports: a read of (`mode`, `opnd`) (R35). -/
def PortOut.operand (q : PortOut) : Option Operand :=
  match AddressingMode.ofId q.mode.toNat with
  | some m => some (Operand.ofPort m q.opnd)
  | none => none

/-- What a host reads from the outputs: nothing unless `valid`, else the three components (R34, R35). Any values can stand
at the ports, so what is read is a bare triple. -/
def PortOut.read (q : PortOut) : Option Triple :=
  if q.valid = 1#1 then
    match q.operation, q.operand with
    | some op, some operand => some ⟨op, operand, q.size.toNat⟩
    | _, _ => none
  else none

namespace Machine

/-- The decoder's outputs during a walk step: "the current decode result", which the host may read at any time together
with `off` and `status` (R39, R166). -/
def currentOutputs (s : State) : PortOut := ifdOutputs (PortIn.ofWindow (window s))

end Machine

end Sys2Proof
end

