-- ==== Sys2Proof/Machine/Render.lean ====
section
/-! DEFINITION. The formatter (30_encoding R120 to R131): assembler text of an instruction. Text is a list of ASCII
characters (00_scope R14). -/

namespace Sys2Proof

/-- Rendered text: "a sequence of ASCII characters" (R14). -/
abbrev Text := List Char

/-- The uppercase hexadecimal digit of a number below 16 (R14; 92 D8). -/
def hexDigit (n : Nat) : Char :=
  ['0', '1', '2', '3', '4', '5', '6', '7', '8', '9', 'A', 'B', 'C', 'D', 'E', 'F'].getD n '0'

/-- `hex2`: two uppercase digits, zero-padded (R14). -/
def hex2 (b : Byte) : Text := [hexDigit (b.toNat / 16), hexDigit (b.toNat % 16)]

/-- `hex4`: four uppercase digits, zero-padded (R14). -/
def hex4 (v : Word) : Text :=
  [hexDigit (v.toNat / 4096), hexDigit (v.toNat / 256 % 16), hexDigit (v.toNat / 16 % 16), hexDigit (v.toNat % 16)]

/-- The Operation's mnemonic text: its three uppercase letters (R131). -/
def mnemonicText : Operation → Text
  | .adc => ['A', 'D', 'C']
  | .and => ['A', 'N', 'D']
  | .asl => ['A', 'S', 'L']
  | .bcc => ['B', 'C', 'C']
  | .bcs => ['B', 'C', 'S']
  | .beq => ['B', 'E', 'Q']
  | .bit => ['B', 'I', 'T']
  | .bmi => ['B', 'M', 'I']
  | .bne => ['B', 'N', 'E']
  | .bpl => ['B', 'P', 'L']
  | .brk => ['B', 'R', 'K']
  | .bvc => ['B', 'V', 'C']
  | .bvs => ['B', 'V', 'S']
  | .clc => ['C', 'L', 'C']
  | .cld => ['C', 'L', 'D']
  | .cli => ['C', 'L', 'I']
  | .clv => ['C', 'L', 'V']
  | .cmp => ['C', 'M', 'P']
  | .cpx => ['C', 'P', 'X']
  | .cpy => ['C', 'P', 'Y']
  | .dec => ['D', 'E', 'C']
  | .dex => ['D', 'E', 'X']
  | .dey => ['D', 'E', 'Y']
  | .eor => ['E', 'O', 'R']
  | .inc => ['I', 'N', 'C']
  | .inx => ['I', 'N', 'X']
  | .iny => ['I', 'N', 'Y']
  | .jmp => ['J', 'M', 'P']
  | .jsr => ['J', 'S', 'R']
  | .lda => ['L', 'D', 'A']
  | .ldx => ['L', 'D', 'X']
  | .ldy => ['L', 'D', 'Y']
  | .lsr => ['L', 'S', 'R']
  | .nop => ['N', 'O', 'P']
  | .ora => ['O', 'R', 'A']
  | .pha => ['P', 'H', 'A']
  | .php => ['P', 'H', 'P']
  | .pla => ['P', 'L', 'A']
  | .plp => ['P', 'L', 'P']
  | .rol => ['R', 'O', 'L']
  | .ror => ['R', 'O', 'R']
  | .rti => ['R', 'T', 'I']
  | .rts => ['R', 'T', 'S']
  | .sbc => ['S', 'B', 'C']
  | .sec => ['S', 'E', 'C']
  | .sed => ['S', 'E', 'D']
  | .sei => ['S', 'E', 'I']
  | .sta => ['S', 'T', 'A']
  | .stx => ['S', 'T', 'X']
  | .sty => ['S', 'T', 'Y']
  | .tax => ['T', 'A', 'X']
  | .tay => ['T', 'A', 'Y']
  | .tsx => ['T', 'S', 'X']
  | .txa => ['T', 'X', 'A']
  | .txs => ['T', 'X', 'S']
  | .tya => ['T', 'Y', 'A']

/-- `render_operand`: the text of a bare operand (R121 to R130). No index suffix is printed for the indexed absolute and
zero-page forms (90 C9). -/
def renderOperand : Operand → Text
  | .absolute v | .absoluteX v | .absoluteY v => '$' :: hex4 v
  | .accumulator => ['A']
  | .immediate v => '#' :: '$' :: hex2 v
  | .implied => []
  | .indirect v => '(' :: '$' :: hex4 v ++ [')']
  | .indexedIndirect v => '(' :: '$' :: hex2 v ++ [',', 'X', ')']
  | .indirectIndexed v => '(' :: '$' :: hex2 v ++ [')', ',', 'Y']
  | .relative s => '$' :: hex2 (byteOf s)
  | .zeroPage v | .zeroPageX v | .zeroPageY v => '$' :: hex2 v

/-- `render`: the mnemonic alone for an implied operand, otherwise the mnemonic, one space and the operand's text
(R120). It looks at the triple only, so it is defined on any. -/
def render (i : Triple) : Text :=
  match i.operand with
  | .implied => mnemonicText i.operation
  | operand => mnemonicText i.operation ++ [' '] ++ renderOperand operand

end Sys2Proof
end

