-- ==== Sys2Proof/Machine/Walk.lean ====
section
/-! DEFINITION. WALK as the pseudocode of 40_decode_operations R160 writes it, over FSEQ's registers and a buffer, for any
opcode table (92 D4): the step, runs of it, and the linear sweep it computes. Step.lean's `step` runs the decoded `Instr`
instead; that the two agree for the default table is a statement of this package. -/

namespace Sys2Proof.Machine

/-- The registers of FSEQ with its ghost, in a block with table `T` (R36, R37, R39). -/
structure Fseq (T : OpcodeTable) where
  off : Nat
  status : Status
  trace : List (Nat × InstructionOf T)
  deriving DecidableEq, Repr

/-- One WALK step (R160); none where FSEQ has no step. -/
def walkStepWith (T : OpcodeTable) (buf : List Byte) (r : Fseq T) : Option (Fseq T) :=
  if r.status ≠ .running then none
  else if buf.length ≤ r.off then some { r with status := .stoppedExhausted }
  else
    match decodeWith T (buf.drop r.off) with
    | none => some { r with status := .stoppedAbsent }
    | some i => some { r with trace := r.trace ++ [(r.off, i)], off := r.off + i.size }

/-- At most `n` WALK steps, ending early when there is none. -/
def walkWith (T : OpcodeTable) (buf : List Byte) : Nat → Fseq T → Fseq T
  | 0, r => r
  | n + 1, r =>
    match walkStepWith T buf r with
    | none => r
    | some r' => walkWith T buf n r'

/-- The registers a state holds. -/
def State.registers (s : State) : Fseq opcodeTable := ⟨s.off, s.status, s.trace⟩

/-- A state with other registers and the same buffer and build. -/
def State.withRegisters (s : State) (r : Fseq opcodeTable) : State :=
  { s with off := r.off, status := r.status, trace := r.trace }

/-- `buf`: the bytes of the buffer a state holds (R38). -/
def State.buffer (s : State) : List Byte := suffixAt s 0

/-- The linear sweep of a byte sequence whose first byte has offset `a` (R165): the pairs, the final offset and the
final status. `fuel` bounds the steps; one more than the length is enough (R164). -/
def sweepWith (T : OpcodeTable) (fuel a : Nat) (w : List Byte) : List (Nat × InstructionOf T) × Nat × Status :=
  match fuel with
  | 0 => ([], a, .running)
  | n + 1 =>
    match w with
    | [] => ([], a, .stoppedExhausted)
    | b :: rest =>
      match decodeWith T (b :: rest) with
      | none => ([], a, .stoppedAbsent)
      | some i =>
        let r := sweepWith T n (a + i.size) ((b :: rest).drop i.size)
        ((a, i) :: r.1, r.2)

end Sys2Proof.Machine
end

