-- ==== Sys2Proof/Safety.lean ====
section
/-! DEFINITION. The terms claims are stated in: a state that may step, what one instruction's step leaves, the invariants
of a walk, the constraints on a table, and the decode rule of one mnemonic. Written from the spec's words with formulas of
their own, not with the model's operations, wherever a claim compares the two. -/

namespace Sys2Proof

open Machine

/-! ### A step's hypotheses and its result -/

/-- FSEQ has a step: `status` is Running and the host's duty on `L` is met (R36, R160). -/
abbrev Ready (s : State) : Prop := s.status = .running ∧ s.len ≤ 2 ^ s.offw - 1

/-- The bytes stand in the buffer where the next step decodes. -/
abbrev StandsAt (s : State) (bytes : List Byte) : Prop := bytes <+: window s

/-- The state after a successful step: one pair appended to `trace`, `off` advanced by the size, all else as before
(R160, R161). -/
def recorded (s : State) (i : Instruction) : State :=
  { off := s.off + i.size, status := s.status, trace := s.trace ++ [(s.off, i)],
    mem := s.mem, len := s.len, offw := s.offw }

/-- `exec` of an instruction answers the recorded state in every state, with the given triple as what is recorded. -/
def RecordsAs (i : Instr) (op : Operation) (operand : Operand) (n : Nat) : Prop :=
  ∃ j : Instruction, j.toTriple = ⟨op, operand, n⟩ ∧ ∀ s : State, exec i s = .next (recorded s j)

/-- An instruction completes: `exec` of it answers the recorded state in every state, and so does `step` wherever its
bytes stand at `off` of a ready state. -/
def CompletesAs (i : Instr) (bytes : List Byte) (op : Operation) (operand : Operand) (n : Nat) : Prop :=
  ∃ j : Instruction, j.toTriple = ⟨op, operand, n⟩ ∧
    (∀ s : State, exec i s = .next (recorded s j)) ∧
    ∀ s : State, Ready s → StandsAt s bytes → step s = .next (recorded s j)

/-- Everything of a state but `off`, `status` and `trace`: no operation of the block writes it (R38, R54). -/
def SameBuffer (s t : State) : Prop :=
  t.mem = s.mem ∧ t.len = s.len ∧ t.offw = s.offw ∧ ∀ a, readMem t.mem a = readMem s.mem a

/-! ### Invariants of a walk -/

/-- The invariant R40: `off <= L`, and every pair `(a, i)` of `trace` has `a + i.size <= L`. -/
def WalkBounds (s : State) : Prop :=
  s.off ≤ s.len ∧ ∀ p ∈ s.trace, p.1 + p.2.size ≤ s.len

/-- The pairs cover the bytes from one offset to another with no overlap and no gap (R161). -/
def Contiguous : Nat → List (Nat × Instruction) → Nat → Prop
  | a, [], b => a = b
  | a, (k, i) :: rest, b => k = a ∧ Contiguous (a + i.size) rest b

/-- A pair `(op, m)` of the table made the triple, and it meets both invariants of R26 and the range of R25. -/
def TableMade (T : OpcodeTable) (i : Triple) : Prop :=
  i.wf = true ∧ ∃ b, T b = some (i.operation, i.operand.mode)

/-- What every state of a walk satisfies: the buffer in canonical form within `L`, the host's duty on `L`, `off` within
the buffer, the trace a gapless sweep from offset 0 to `off` of what decodes there, and a truthful `status` (R36 to R40,
R161 to R163). -/
structure WalkInvariant (s : State) : Prop where
  canonical : memWf s.mem = true
  within : memWithin s.mem s.len = true
  fits : s.len ≤ 2 ^ s.offw - 1
  offWithin : s.off ≤ s.len
  gapless : Contiguous 0 s.trace s.off
  decoded : ∀ p ∈ s.trace, decode (suffixAt s p.1) = some p.2 ∧ TableMade opcodeTable p.2.toTriple
  truthful : statusTruthful opcodeTable s = true

/-- `s` walks a buffer whose suffix from `a` is the buffer `u` walks, and has come as far past `a` as `u` has come: the
two traces agree with `a` added to every offset, after the pairs `s` had already (R43). -/
def ShiftedBy (a : Nat) (before : List (Nat × Instruction)) (s u : State) : Prop :=
  s.len = a + u.len ∧ s.off = a + u.off ∧ s.status = u.status ∧
    (∀ k < u.len, readMem s.mem (a + k) = readMem u.mem k) ∧
    s.trace = before ++ u.trace.map fun p => (a + p.1, p.2)

/-! ### Tables -/

/-- The constraints R8 puts on every instance of `OPCODE_TABLE`; (a), totality, is its type. -/
def ValidTable (T : OpcodeTable) : Prop :=
  (∃ op, T 0xA0#8 = some (op, .immediate) ∧ mnemonicText op = ['L', 'D', 'Y']) ∧
    (∃ b, T b = none) ∧
    (∃ b op, T b = some (op, .relative)) ∧
    ∃ b op m, T b = some (op, m) ∧ (m = .absolute ∨ m = .absoluteX ∨ m = .absoluteY)

/-- All 256 opcode bytes in rising order. -/
def allBytes : List Byte := (List.range 256).map (BitVec.ofNat 8)

/-- The opcode bytes of the default table with a given mode, rising (R101). -/
def opcodesOfMode (m : AddressingMode) : List Byte :=
  allBytes.filter fun b => (opcodeTable b).any fun e => e.2 == m

/-- The entries of the default table with a given mode, each opcode byte with its Operation, rising (R101). -/
def entriesOfMode (m : AddressingMode) : List (Byte × Operation) :=
  allBytes.filterMap fun b =>
    match opcodeTable b with
    | some (op, m') => if m' = m then some (b, op) else none
    | none => none

/-- The undefined set `U` of R91, row by row. -/
def undefinedOpcodes : List Byte :=
  [0x02, 0x03, 0x04, 0x07, 0x0B, 0x0C, 0x0F] ++
  [0x12, 0x13, 0x14, 0x17, 0x1A, 0x1B, 0x1C, 0x1F] ++
  [0x22, 0x23, 0x27, 0x2B, 0x2F] ++
  [0x32, 0x33, 0x34, 0x37, 0x3A, 0x3B, 0x3C, 0x3F] ++
  [0x42, 0x43, 0x44, 0x47, 0x4B, 0x4F] ++
  [0x52, 0x53, 0x54, 0x57, 0x5A, 0x5B, 0x5C, 0x5F] ++
  [0x62, 0x63, 0x64, 0x67, 0x6B, 0x6F] ++
  [0x72, 0x73, 0x74, 0x77, 0x7A, 0x7B, 0x7C, 0x7F] ++
  [0x80, 0x82, 0x83, 0x87, 0x89, 0x8B, 0x8F] ++
  [0x92, 0x93, 0x97, 0x9B, 0x9C, 0x9E, 0x9F] ++
  [0xA3, 0xA7, 0xAB, 0xAF] ++
  [0xB2, 0xB3, 0xB7, 0xBB, 0xBF] ++
  [0xC2, 0xC3, 0xC7, 0xCB, 0xCF] ++
  [0xD2, 0xD3, 0xD4, 0xD7, 0xDA, 0xDB, 0xDC, 0xDF] ++
  [0xE2, 0xE3, 0xE7, 0xEB, 0xEF] ++
  [0xF2, 0xF3, 0xF4, 0xF7, 0xFA, 0xFB, 0xFC, 0xFF]

/-! ### Text -/

/-- The sixteen uppercase hexadecimal digits in rising order (R14, R121). -/
def upperHexDigits : List Char :=
  ['0', '1', '2', '3', '4', '5', '6', '7', '8', '9', 'A', 'B', 'C', 'D', 'E', 'F']

/-! ### The decode rule of a mnemonic (files 41 to 46) -/

/-- `{w[1], w[2]} = 256*w[1] + w[2]` (R9). -/
def bothBytes (w1 w2 : Byte) : Word := BitVec.ofNat 16 (256 * w1.toNat + w2.toNat)

/-- The column "Operand produced": the operand from the two bytes after the opcode, by the formulas of R9, R10 and R25:
`{w[1], w[2]}`, `w[1]` as is, or the two's-complement reading of `w[1]`. -/
def rowOperand (m : AddressingMode) (w1 w2 : Byte) : Operand :=
  match m with
  | .absolute => .absolute (bothBytes w1 w2)
  | .absoluteX => .absoluteX (bothBytes w1 w2)
  | .absoluteY => .absoluteY (bothBytes w1 w2)
  | .accumulator => .accumulator
  | .immediate => .immediate w1
  | .implied => .implied
  | .indexedIndirect => .indexedIndirect w1
  | .indirect => .indirect (bothBytes w1 w2)
  | .indirectIndexed => .indirectIndexed w1
  | .relative => .relative w1.toInt
  | .zeroPage => .zeroPage w1
  | .zeroPageX => .zeroPageX w1
  | .zeroPageY => .zeroPageY w1

/-- The column "text": `hh` and `ll` the hex digits of the two operand bytes, `vv` those of the single one. -/
def rowText (name : Text) (m : AddressingMode) (w1 w2 : Byte) : Text :=
  match m with
  | .absolute | .absoluteX | .absoluteY => name ++ [' ', '$'] ++ hex2 w1 ++ hex2 w2
  | .accumulator => name ++ [' ', 'A']
  | .immediate => name ++ [' ', '#', '$'] ++ hex2 w1
  | .implied => name
  | .indexedIndirect => name ++ [' ', '(', '$'] ++ hex2 w1 ++ [',', 'X', ')']
  | .indirect => name ++ [' ', '(', '$'] ++ hex2 w1 ++ hex2 w2 ++ [')']
  | .indirectIndexed => name ++ [' ', '(', '$'] ++ hex2 w1 ++ [')', ',', 'Y']
  | .relative | .zeroPage | .zeroPageX | .zeroPageY => name ++ [' ', '$'] ++ hex2 w1

/-- One row `(opcode, mode, size)` of a mnemonic's encoding table: a window that starts with the opcode decodes to the
row's operand and size when it is long enough and to nothing when it is not; the result renders as the row's text; and a
step at it writes nothing but FSEQ's `off` and `trace` ("State written: none. Flags written: none. Exceptions raised:
none."). -/
def RowRule (op : Operation) (name : Text) (b : Byte) (m : AddressingMode) (size : Nat) : Prop :=
  ∀ w : List Byte, w.head? = some b →
    (w.length < size → decode w = none) ∧
      (size ≤ w.length → ∃ i : Instruction,
        i.toTriple = ⟨op, rowOperand m (byteAt w 1) (byteAt w 2), size⟩ ∧ decode w = some i ∧
          render i.toTriple = rowText name m (byteAt w 1) (byteAt w 2) ∧
          ∀ s : State, Ready s → window s = w → step s = .next (recorded s i))

/-- The decode rule of a mnemonic: its id, its name, exactly its rows in the table, every row's rule, and the
opcode bytes the rule names as undefined. -/
def MnemonicRule (op : Operation) (id : Nat) (name : Text) (rows : List (Byte × AddressingMode × Nat))
    (undefinedBytes : List Byte) : Prop :=
  op.id = id ∧ mnemonicText op = name ∧
    (∀ b m, opcodeTable b = some (op, m) ↔ ∃ size, (b, m, size) ∈ rows) ∧
    (∀ b m size, (b, m, size) ∈ rows → RowRule op name b m size) ∧
    ∀ b ∈ undefinedBytes, opcodeTable b = none

end Sys2Proof
end

