-- ==== Sys2Proof/Certificates/Slice0/Obligations.lean ====
section
/-! DEFINITION. The statements for the provers, in the order of OBLIGATIONS.json. Statements over a table `T` hold for every
content of the parameter `OPCODE_TABLE` (R7); those over `decode` and `step` for the default table, whose content the spec
marks as general knowledge (93 G1, log 1). -/

open Sys2Proof Sys2Proof.Machine

/-! ### Reset and the host -/

/-- R340, R342: reset acts on FSEQ's registers only, gives the values of R43 from every state, and gives the same state
whenever it arrives; the build and the host's buffer stay. -/
def Obligations.ResetActsOnRegistersOnly : Prop :=
  ∀ s : State,
    (hostReset s).off = 0 ∧ (hostReset s).status = .running ∧ (hostReset s).trace = [] ∧
    (hostReset s).mem = s.mem ∧ (hostReset s).len = s.len ∧ (hostReset s).offw = s.offw ∧
    State.reset.off = 0 ∧ State.reset.status = .running ∧ State.reset.trace = [] ∧
    ∀ t : State, t.mem = s.mem → t.len = s.len → t.offw = s.offw → hostReset t = hostReset s

/-- R341: after the host has loaded a buffer and released reset, the next step's window is `buf[0..]`, the whole buffer as
it was given, and FSEQ is Running at offset 0. -/
def Obligations.LoadedBufferIsTheWindow : Prop :=
  ∀ (bs : List Byte) (s : State),
    window (hostLoad bs s) = bs ∧ (hostLoad bs s).off = 0 ∧ (hostLoad bs s).status = .running ∧
    (hostLoad bs s).trace = [] ∧ (hostLoad bs s).len = bs.length ∧
    memWf (hostLoad bs s).mem = true ∧ memWithin (hostLoad bs s).mem bs.length = true

/-- R43, R166: a walk of a buffer keeps step with the walk of its suffix from `a`, with `a` added to every offset. -/
def Obligations.WalkFromAnotherOffset : Prop :=
  ∀ (a : Nat) (before : List (Nat × Instruction)) (s u : State),
    Ready s → Ready u → ShiftedBy a before s u →
      ∃ s' u', step s = .next s' ∧ step u = .next u' ∧ ShiftedBy a before s' u'

/-! ### The walk step -/

/-- R160: where the window decodes to an instruction, a ready state's step is `exec` of it and nothing besides. -/
def Obligations.StepRunsDecodedInstruction : Prop :=
  ∀ (s : State) (i : Instr), Ready s → decodeInstr (window s) = .ok i → step s = exec i s

/-- A ready state's step runs the well-formed instruction whose encoding stands at `off` (R160, R55). -/
def Obligations.StepRunsTheEncodedInstruction : Prop :=
  ∀ (s : State) (i : Instr), Ready s → i.wf = true → StandsAt s (encode i) → step s = exec i s

/-- R160 with logs 3 and 6: within the host's duty on `L` the machine's step, which dispatches on the decoded `Instr`, is the
WALK pseudocode over DECODE, in every state; where FSEQ has no step the model refuses it as walkStopped (log 6), and outside
the duty as bufferTooLong (log 3), which are the model's names. -/
def Obligations.StepIsTheWalkPseudocode : Prop :=
  ∀ s : State,
    (s.len ≤ 2 ^ s.offw - 1 →
      match walkStepWith opcodeTable s.buffer s.registers with
      | some r => step s = .next (s.withRegisters r)
      | none => step s = .refused .walkStopped) ∧
    (¬ s.len ≤ 2 ^ s.offw - 1 → step s = .refused .bufferTooLong)

/-- R161: a successful step advances `off` by exactly the decoded size, leaves Running, appends one pair, and keeps `off`
within the buffer; the next window starts at the byte after the instruction's last. -/
def Obligations.SuccessfulStepAdvancesBySize : Prop :=
  ∀ (s : State) (i : Instruction), Ready s → decode (window s) = some i →
    ∃ t, step s = .next t ∧ t = recorded s i ∧
      (i.size = 1 ∨ i.size = 2 ∨ i.size = 3) ∧ t.off = s.off + i.size ∧ t.status = .running ∧
      t.trace = s.trace ++ [(s.off, i)] ∧ t.off ≤ t.len ∧ window t = (window s).drop i.size

/-- R162: absence before the end stops the walk with `off` and `trace` as they were, for both causes: an unmapped opcode,
or a defined one that needs more bytes than remain. -/
def Obligations.AbsenceStopsTheWalk : Prop :=
  (∀ s : State, Ready s → s.off < s.len → decode (window s) = none →
    ∃ t, step s = .next t ∧ t.status = .stoppedAbsent ∧ t.off = s.off ∧ t.trace = s.trace ∧ SameBuffer s t) ∧
  (∀ s : State, Ready s → s.off < s.len → opcodeTable (readMem s.mem s.off) = none →
    decode (window s) = none) ∧
  ∀ (s : State) (op : Operation) (m : AddressingMode), Ready s → s.off < s.len →
    opcodeTable (readMem s.mem s.off) = some (op, m) → s.len - s.off < m.size → decode (window s) = none

/-- R163: with no byte left the walk stops as exhausted, `off` and `trace` unchanged, without an error; the empty buffer
does so in its first step; decode of the empty window is `None`; and a walk that has stopped is over: it has no step. -/
def Obligations.ExhaustionStopsTheWalk : Prop :=
  (∀ s : State, Ready s → s.len ≤ s.off →
    ∃ t, step s = .next t ∧ t.status = .stoppedExhausted ∧ t.off = s.off ∧ t.trace = s.trace ∧ SameBuffer s t) ∧
  (∀ s : State, ∃ t, step (hostLoad [] s) = .next t ∧ t.status = .stoppedExhausted ∧ t.off = 0 ∧ t.trace = []) ∧
  (∀ T : OpcodeTable, decodeWith T [] = none) ∧
  ∀ s t : State, s.status = .stoppedExhausted ∨ s.status = .stoppedAbsent → step s ≠ .next t

/-- R160 last sentence, 93 Part 1: no step when not Running, and none outside the host's duty on `L`; in every other state
there is one, and it answers a next state. -/
def Obligations.StepExistsExactlyWhenReady : Prop :=
  ∀ s : State,
    (¬ s.len ≤ 2 ^ s.offw - 1 → step s = .refused .bufferTooLong) ∧
    (s.len ≤ 2 ^ s.offw - 1 → s.status ≠ .running → step s = .refused .walkStopped) ∧
    (Ready s ↔ ∃ t, step s = .next t)

/-- R27, R66, R153: what a step adds depends on the table and on the first three bytes of its window, not on the history,
the offset or the bytes elsewhere. -/
def Obligations.StepDependsOnThreeBytes : Prop :=
  ∀ s u : State, Ready s → Ready u → s.off < s.len → u.off < u.len →
    (window s).take 3 = (window u).take 3 →
      (step s = .next { s with status := .stoppedAbsent } ∧ step u = .next { u with status := .stoppedAbsent }) ∨
      ∃ i : Instruction, step s = .next (recorded s i) ∧
        step u = .next (recorded u i)

/-- R27, R38, R54, R161: no instruction and no step writes the buffer, its length or the build; every byte of the buffer
reads as before; an instruction leaves `status` as it was, appends exactly its own pair and moves `off` by exactly its size;
a step only ever appends to `trace` and only ever advances `off`, by at most three. -/
def Obligations.InstructionsAndStepsLeaveTheRest : Prop :=
  (∀ (i : Instr) (s t : State), exec i s = .next t →
    SameBuffer s t ∧ t.status = s.status ∧ t.off = s.off + i.instruction.size ∧
      t.trace = s.trace ++ [(s.off, i.instruction)]) ∧
  ∀ s t : State, step s = .next t →
    SameBuffer s t ∧ s.off ≤ t.off ∧ t.off ≤ s.off + 3 ∧
      ((t.trace = s.trace ∧ t.off = s.off ∧ t.status ≠ .running) ∨
        ∃ i : Instruction, t.trace = s.trace ++ [(s.off, i)] ∧ t.off = s.off + i.size ∧ t.status = .running)

/-! ### Invariants and whole walks -/

/-- R40: `0 <= off <= L` and every pair of `trace` ends within the buffer: at reset, and after every step from every state
where it holds. -/
def Obligations.WalkBoundsAreKept : Prop :=
  (∀ s : State, WalkBounds (hostReset s)) ∧
  ∀ s t : State, WalkBounds s → step s = .next t → WalkBounds t

/-- The whole invariant of a walk holds at reset and after every load within the host's duty (R36 to R40, R43). -/
def Obligations.WalkInvariantHoldsAtReset : Prop :=
  WalkInvariant State.reset ∧
  ∀ (bs : List Byte) (s : State), bs.length ≤ 2 ^ s.offw - 1 → WalkInvariant (hostLoad bs s)

/-- Every step from every state that satisfies the whole invariant of a walk leads to a state that satisfies it (R36 to
R40, R161 to R163); that the buffer is a list of cells in canonical form within `L` is the model's own form (log 4). -/
def Obligations.StepKeepsWalkInvariant : Prop :=
  ∀ s t : State, WalkInvariant s → step s = .next t → WalkInvariant t

/-- R164: from every ready state within the buffer the walk stops after at most one more step than bytes remain, and so
after at most `L + 1` steps. -/
def Obligations.WalkTerminates : Prop :=
  ∀ s : State, Ready s → s.off ≤ s.len →
    ∃ k t, k ≤ s.len - s.off + 1 ∧ k ≤ s.len + 1 ∧ Sys2Proof.core.run k s = .next t ∧ t.status ≠ .running ∧
      (t.status = .stoppedExhausted ∧ t.off = t.len ∨
        t.status = .stoppedAbsent ∧ t.off < t.len ∧ decode (window t) = none)

/-- R164 for every table (92 D4): `L + 1` WALK steps stop every walk, whatever the table holds, at the end of the buffer or at
an offset that does not decode; the pairs recorded before stay. -/
def Obligations.WalkTerminatesForEveryTable : Prop :=
  ∀ (T : OpcodeTable) (buf : List Byte) (r t : Fseq T), r.status = .running → r.off ≤ buf.length →
    t = walkWith T buf (buf.length + 1) r →
      walkStepWith T buf t = none ∧ r.trace <+: t.trace ∧
      (t.status = .stoppedExhausted ∧ t.off = buf.length ∨
        t.status = .stoppedAbsent ∧ t.off < buf.length ∧ decodeWith T (buf.drop t.off) = none)

/-- R165: a walk of a buffer from reset is the linear sweep of its bytes: trace, final offset and final status are that
function of the bytes alone, whatever the state the buffer was loaded in. -/
def Obligations.WalkComputesTheSweep : Prop :=
  ∀ (bs : List Byte) (s : State), bs.length ≤ 2 ^ s.offw - 1 →
    ∃ k t, k ≤ bs.length + 1 ∧ Sys2Proof.core.run k (hostLoad bs s) = .next t ∧ t.status ≠ .running ∧
      (t.trace, t.off, t.status) = sweepWith opcodeTable (bs.length + 1) 0 bs

/-! ### The decode operation, for every table -/

/-- R151: a defined opcode padded with two zero bytes decodes, with size 1, 2 or 3 as its mode has, and its payload, where
there is one, is 0. -/
def Obligations.PaddedDefinedOpcodesDecode : Prop :=
  ∀ (T : OpcodeTable) (b : Byte) (op : Operation) (m : AddressingMode), T b = some (op, m) →
    (decodeWith T [b, 0#8, 0#8]).map InstructionOf.toTriple = some ⟨op, extract m [b, 0#8, 0#8], m.size⟩ ∧
    (m.size = 1 ∨ m.size = 2 ∨ m.size = 3) ∧
    ∀ x ∈ (extract m [b, 0#8, 0#8]).bytes, x = 0#8

/-- R91, R92, R152: an opcode byte with an empty slot never decodes, whatever follows, and only its own byte is read; with
the default table these are exactly the 105 bytes of `U`. -/
def Obligations.UndefinedOpcodesNeverDecode : Prop :=
  (∀ (T : OpcodeTable) (b : Byte), T b = none →
    ∀ rest : List Byte, decodeWith T (b :: rest) = none ∧ readsWith T (b :: rest) = [0]) ∧
  (∀ b : Byte, opcodeTable b = none ↔ b ∈ undefinedOpcodes) ∧
  undefinedOpcodes.length = 105 ∧ undefinedOpcodes.Nodup

/-- R153: shorter than the size gives absence; long enough gives the decode of the first `N` bytes, which is an
instruction; and every window decodes as its first three bytes. -/
def Obligations.TruncationAndFirstBytesLaw : Prop :=
  (∀ (T : OpcodeTable) (b : Byte) (rest : List Byte) (op : Operation) (m : AddressingMode), T b = some (op, m) →
    ((b :: rest).length < m.size → decodeWith T (b :: rest) = none) ∧
    (m.size ≤ (b :: rest).length →
      decodeWith T (b :: rest) = decodeWith T ((b :: rest).take m.size) ∧
      (decodeWith T (b :: rest)).isSome = true)) ∧
  ∀ (T : OpcodeTable) (w : List Byte), decodeWith T w = decodeWith T (w.take 3)

/-- R154: of every instruction a decode returns, the table entry is its operation and its operand's tag, the size is the
tag's, between 1 and 3 and within the window; and every Instruction there is meets both invariants of R26, so the rule's
example of one that breaks them is none. -/
def Obligations.SizeAndTagLaws : Prop :=
  (∀ (T : OpcodeTable) (w : List Byte) (i : InstructionOf T), decodeWith T w = some i →
    (∃ b rest, w = b :: rest ∧ T b = some (i.operation, i.operand.mode)) ∧
    i.size = i.operand.mode.size ∧ 1 ≤ i.size ∧ i.size ≤ 3 ∧ i.size ≤ w.length ∧ TableMade T i.toTriple) ∧
  ∀ (T : OpcodeTable) (i : InstructionOf T),
    i.toTriple ≠ ⟨.nop, .absolute 0#16, 1⟩ ∧ (i.size = 1 ∨ i.size = 2 ∨ i.size = 3) ∧
    i.size = i.operand.mode.size ∧ (∃ b, T b = some (i.operation, i.operand.mode)) ∧
    (i.operand.wf = true → ∃ w, decodeWith T w = some i)

/-- R155: the first `size` bytes of a window are its opcode and the bytes of the operand decoded; with the default table
two windows that differ in those bytes give different results. -/
def Obligations.ResultDeterminesTheBytes : Prop :=
  (∀ (T : OpcodeTable) (b : Byte) (rest : List Byte) (i : InstructionOf T), decodeWith T (b :: rest) = some i →
    (b :: rest).take i.size = b :: i.operand.bytes) ∧
  ∀ (w w' : List Byte) (i i' : Instruction), decode w = some i → decode w' = some i' →
    (w.take i.size ≠ w'.take i.size ∨ w.take i'.size ≠ w'.take i'.size → i ≠ i')

/-- R300 to R303: exactly two conditions give `None`, unmapped opcode and truncated buffer, the empty window being one of
the second; R302 by size. -/
def Obligations.ExactlyTwoFailureConditions : Prop :=
  (∀ (T : OpcodeTable) (w : List Byte), decodeWith T w = none ↔
    (∃ b rest, w = b :: rest ∧ T b = none) ∨
    (w = [] ∨ ∃ b rest op m, w = b :: rest ∧ T b = some (op, m) ∧ w.length < m.size)) ∧
  ∀ (T : OpcodeTable) (b : Byte) (rest : List Byte) (op : Operation) (m : AddressingMode), T b = some (op, m) →
    (m.size = 1 → decodeWith T (b :: rest) ≠ none) ∧
    (m.size = 2 → (decodeWith T (b :: rest) = none ↔ (b :: rest).length ≤ 1)) ∧
    (m.size = 3 → (decodeWith T (b :: rest) = none ↔ (b :: rest).length ≤ 2))

/-- R61: a decode reads nothing of an empty window, the opcode alone when it fails, and exactly the indices below the size
when it succeeds; two windows equally long that agree on the indices read give the same result. -/
def Obligations.DecodeReadsOnlyTheInstruction : Prop :=
  (∀ (T : OpcodeTable) (b : Byte) (rest : List Byte),
    (decodeWith T (b :: rest) = none → readsWith T (b :: rest) = [0]) ∧
    ∀ i, decodeWith T (b :: rest) = some i → readsWith T (b :: rest) = List.range i.size) ∧
  (∀ T : OpcodeTable, readsWith T [] = []) ∧
  ∀ (T : OpcodeTable) (w w' : List Byte), w.length = w'.length →
    (∀ k ∈ readsWith T w, w[k]? = w'[k]?) → decodeWith T w = decodeWith T w'

/-! ### Widths, operands, the table -/

/-- R84: the width and the size of each mode, and the operand variant and payload each produces. -/
def Obligations.OperandWidthRouter : Prop :=
  (∀ m : AddressingMode, m.size = 1 + m.width ∧
    (m.width = 2 ↔ m = .absolute ∨ m = .absoluteX ∨ m = .absoluteY ∨ m = .indirect) ∧
    (m.width = 0 ↔ m = .accumulator ∨ m = .implied) ∧ m.width ≤ 2) ∧
  ∀ (m : AddressingMode) (w : List Byte),
    (extract m w).mode = m ∧ (extract m w).payloadBytes = m.width ∧
    extract m w = rowOperand m (byteAt w 1) (byteAt w 2)

/-- R86, R56: in the four 16-bit modes the operand is its first byte in bits 15..8 and its second in bits 7..0, and nothing
is lost. -/
def Obligations.SixteenBitOperandsHighByteFirst : Prop :=
  (∀ (m : AddressingMode) (w : List Byte), m.width = 2 → ∃ v : Word,
    (m = .absolute ∧ extract m w = .absolute v ∨ m = .absoluteX ∧ extract m w = .absoluteX v ∨
      m = .absoluteY ∧ extract m w = .absoluteY v ∨ m = .indirect ∧ extract m w = .indirect v) ∧
    v.toNat = 256 * (byteAt w 1).toNat + (byteAt w 2).toNat ∧ highByte v = byteAt w 1 ∧ lowByte v = byteAt w 2) ∧
  ∀ (h l : Byte), (joinBytes h l).toNat = 256 * h.toNat + l.toNat ∧
    highByte (joinBytes h l) = h ∧ lowByte (joinBytes h l) = l ∧
    ∀ v : Word, joinBytes (highByte v) (lowByte v) = v

/-- R10: `sint8` is the two's-complement reading, its range is -128..127, and `byte_of` is its inverse both ways. -/
def Obligations.SignedByteReading : Prop :=
  (∀ b : Byte, sint8 b = (if b.toNat ≤ 127 then (b.toNat : Int) else (b.toNat : Int) - 256) ∧
    -128 ≤ sint8 b ∧ sint8 b ≤ 127 ∧ byteOf (sint8 b) = b) ∧
  (∀ k : Int, -128 ≤ k → k ≤ 127 → sint8 (byteOf k) = k ∧
    ((byteOf k).toNat : Int) = if 0 ≤ k then k else k + 256) ∧
  sint8 0xF0#8 = -16

/-- R8, R102: the default table meets the source's constraints, and agrees with what the source itself fixes. -/
def Obligations.DefaultTableMeetsTheSource : Prop :=
  ValidTable opcodeTable ∧ opcodeTable 0xA0#8 = some (.ldy, .immediate) ∧
  opcodeTable 0xB1#8 = some (.lda, .indirectIndexed) ∧
  opcodesOfMode .relative = [0x10, 0x30, 0x50, 0x70, 0x90, 0xB0, 0xD0, 0xF0] ∧
  (opcodesOfMode .absolute).length = 23 ∧ ∃ b, opcodeTable b = none

/-- R101, R103: the opcode bytes of each mode with their mnemonics, the counts by size, and the regularities of the
table. -/
def Obligations.DefaultTableByMode : Prop :=
  entriesOfMode .absolute =
    [(0x0D, .ora), (0x0E, .asl), (0x20, .jsr), (0x2C, .bit), (0x2D, .and), (0x2E, .rol), (0x4C, .jmp),
     (0x4D, .eor), (0x4E, .lsr), (0x6D, .adc), (0x6E, .ror), (0x8C, .sty), (0x8D, .sta), (0x8E, .stx),
     (0xAC, .ldy), (0xAD, .lda), (0xAE, .ldx), (0xCC, .cpy), (0xCD, .cmp), (0xCE, .dec), (0xEC, .cpx),
     (0xED, .sbc), (0xEE, .inc)] ∧
  entriesOfMode .absoluteX =
    [(0x1D, .ora), (0x1E, .asl), (0x3D, .and), (0x3E, .rol), (0x5D, .eor), (0x5E, .lsr), (0x7D, .adc),
     (0x7E, .ror), (0x9D, .sta), (0xBC, .ldy), (0xBD, .lda), (0xDD, .cmp), (0xDE, .dec), (0xFD, .sbc),
     (0xFE, .inc)] ∧
  entriesOfMode .absoluteY =
    [(0x19, .ora), (0x39, .and), (0x59, .eor), (0x79, .adc), (0x99, .sta), (0xB9, .lda), (0xBE, .ldx),
     (0xD9, .cmp), (0xF9, .sbc)] ∧
  entriesOfMode .accumulator =
    [(0x0A, .asl), (0x2A, .rol), (0x4A, .lsr), (0x6A, .ror)] ∧
  entriesOfMode .immediate =
    [(0x09, .ora), (0x29, .and), (0x49, .eor), (0x69, .adc), (0xA0, .ldy), (0xA2, .ldx), (0xA9, .lda),
     (0xC0, .cpy), (0xC9, .cmp), (0xE0, .cpx), (0xE9, .sbc)] ∧
  entriesOfMode .implied =
    [(0x00, .brk), (0x08, .php), (0x18, .clc), (0x28, .plp), (0x38, .sec), (0x40, .rti), (0x48, .pha),
     (0x58, .cli), (0x60, .rts), (0x68, .pla), (0x78, .sei), (0x88, .dey), (0x8A, .txa), (0x98, .tya),
     (0x9A, .txs), (0xA8, .tay), (0xAA, .tax), (0xB8, .clv), (0xBA, .tsx), (0xC8, .iny), (0xCA, .dex),
     (0xD8, .cld), (0xE8, .inx), (0xEA, .nop), (0xF8, .sed)] ∧
  entriesOfMode .indexedIndirect =
    [(0x01, .ora), (0x21, .and), (0x41, .eor), (0x61, .adc), (0x81, .sta), (0xA1, .lda), (0xC1, .cmp),
     (0xE1, .sbc)] ∧
  entriesOfMode .indirect =
    [(0x6C, .jmp)] ∧
  entriesOfMode .indirectIndexed =
    [(0x11, .ora), (0x31, .and), (0x51, .eor), (0x71, .adc), (0x91, .sta), (0xB1, .lda), (0xD1, .cmp),
     (0xF1, .sbc)] ∧
  entriesOfMode .relative =
    [(0x10, .bpl), (0x30, .bmi), (0x50, .bvc), (0x70, .bvs), (0x90, .bcc), (0xB0, .bcs), (0xD0, .bne),
     (0xF0, .beq)] ∧
  entriesOfMode .zeroPage =
    [(0x05, .ora), (0x06, .asl), (0x24, .bit), (0x25, .and), (0x26, .rol), (0x45, .eor), (0x46, .lsr),
     (0x65, .adc), (0x66, .ror), (0x84, .sty), (0x85, .sta), (0x86, .stx), (0xA4, .ldy), (0xA5, .lda),
     (0xA6, .ldx), (0xC4, .cpy), (0xC5, .cmp), (0xC6, .dec), (0xE4, .cpx), (0xE5, .sbc), (0xE6, .inc)] ∧
  entriesOfMode .zeroPageX =
    [(0x15, .ora), (0x16, .asl), (0x35, .and), (0x36, .rol), (0x55, .eor), (0x56, .lsr), (0x75, .adc),
     (0x76, .ror), (0x94, .sty), (0x95, .sta), (0xB4, .ldy), (0xB5, .lda), (0xD5, .cmp), (0xD6, .dec),
     (0xF5, .sbc), (0xF6, .inc)] ∧
  entriesOfMode .zeroPageY =
    [(0x96, .stx), (0xB6, .ldx)] ∧
  ((allBytes.filter fun b => (opcodeTable b).any fun e => e.2.size == 1).length = 29) ∧
  ((allBytes.filter fun b => (opcodeTable b).any fun e => e.2.size == 2).length = 74) ∧
  ((allBytes.filter fun b => (opcodeTable b).any fun e => e.2.size == 3).length = 48) ∧
  ((allBytes.filter fun b => b.toNat % 4 = 3).length = 64) ∧
  ∀ b : Byte, b.toNat % 4 = 3 → opcodeTable b = none

/-! ### Encoding -/

/-- Decode of encode: every well-formed instruction, at every operand value, is what its bytes decode to, whatever bytes
follow (R90, R155). -/
def Obligations.DecodeOfEncode : Prop :=
  ∀ (i : Instr) (rest : List Byte), i.wf = true → decodeInstr (encode i ++ rest) = .ok i

/-- Encode of decode: the bytes of a decoded instruction are the first bytes of the window, the instruction is well formed
and its triple is the decode's (R90, R155). -/
def Obligations.EncodeOfDecode : Prop :=
  ∀ (w : List Byte) (i : Instr), decodeInstr w = .ok i →
    i.wf = true ∧ encode i = w.take i.instruction.size ∧ decode w = some i.instruction ∧
    i.instruction.wf = true

/-- A word of each family and of each addressing mode, written out from the spec's encodings (files 41 to 46), and its
instruction. The reasons in the last three are the model's record of why there is no result (log 13), which no output of the
block shows. -/
def Obligations.SampleWordsDecode : Prop :=
  decodeInstr [0b10101101#8, 0x12#8, 0x34#8] = .ok (.ldaAbs 0x1234#16) ∧
  decodeInstr [0b10010001#8, 0x80#8] = .ok (.staIzy 0x80#8) ∧
  decodeInstr [0b00101000#8] = .ok .plp ∧
  decodeInstr [0b01100001#8, 0x12#8] = .ok (.adcIzx 0x12#8) ∧
  decodeInstr [0b01101010#8] = .ok .rorAcc ∧
  decodeInstr [0b11110000#8, 0b11110000#8] = .ok (.beqRel (-16)) ∧
  decodeInstr [0b01101100#8, 0xFF#8, 0xFE#8] = .ok (.jmpInd 0xFFFE#16) ∧
  decodeInstr [0b00000000#8] = .ok .brk ∧
  decodeInstr [0b01111000#8] = .ok .sei ∧
  decodeInstr [0b11001001#8, 0xFF#8] = .ok (.cmpImm 0xFF#8) ∧
  decodeInstr [0b11100110#8, 0x07#8] = .ok (.incZp 0x07#8) ∧
  decodeInstr [0b10010100#8, 0x55#8] = .ok (.styZpx 0x55#8) ∧
  decodeInstr [0b10010110#8, 0x7F#8] = .ok (.stxZpy 0x7F#8) ∧
  decodeInstr [0b00111101#8, 0x00#8, 0xFF#8] = .ok (.andAbx 0x00FF#16) ∧
  decodeInstr [0b01011001#8, 0x80#8, 0x00#8] = .ok (.eorAby 0x8000#16) ∧
  decodeInstr [0b00000010#8] = .error .unmapped ∧
  decodeInstr [0b00100000#8, 0x12#8] = .error .truncated ∧
  decodeInstr [] = .error .emptyWindow

/-! ### Rendering -/

/-- R120 to R130, R14: the hexadecimal numerals, the text of each operand shape, and of an instruction. -/
def Obligations.RenderingShapes : Prop :=
  (∀ v : Byte, (hex2 v).length = 2 ∧
    (hex2 v)[0]? = upperHexDigits[v.toNat / 16]? ∧ (hex2 v)[1]? = upperHexDigits[v.toNat % 16]?) ∧
  (∀ v : Word, (hex4 v).length = 4 ∧
    (hex4 v)[0]? = upperHexDigits[v.toNat / 4096]? ∧ (hex4 v)[1]? = upperHexDigits[v.toNat / 256 % 16]? ∧
    (hex4 v)[2]? = upperHexDigits[v.toNat / 16 % 16]? ∧ (hex4 v)[3]? = upperHexDigits[v.toNat % 16]?) ∧
  hex2 0x0A#8 = ['0', 'A'] ∧ hex4 0x0034#16 = ['0', '0', '3', '4'] ∧
  (∀ v : Word,
    renderOperand (.absolute v) = ['$'] ++ hex4 v ∧ renderOperand (.absoluteX v) = ['$'] ++ hex4 v ∧
    renderOperand (.absoluteY v) = ['$'] ++ hex4 v ∧ renderOperand (.indirect v) = ['(', '$'] ++ hex4 v ++ [')']) ∧
  (∀ v : Byte,
    renderOperand (.immediate v) = ['#', '$'] ++ hex2 v ∧
    renderOperand (.indexedIndirect v) = ['(', '$'] ++ hex2 v ++ [',', 'X', ')'] ∧
    renderOperand (.indirectIndexed v) = ['(', '$'] ++ hex2 v ++ [')', ',', 'Y'] ∧
    renderOperand (.relative v.toInt) = ['$'] ++ hex2 v ∧
    renderOperand (.zeroPage v) = ['$'] ++ hex2 v ∧ renderOperand (.zeroPageX v) = ['$'] ++ hex2 v ∧
    renderOperand (.zeroPageY v) = ['$'] ++ hex2 v) ∧
  renderOperand .accumulator = ['A'] ∧ renderOperand .implied = [] ∧
  (∀ (op : Operation) (n : Nat), render ⟨op, .implied, n⟩ = mnemonicText op) ∧
  ∀ i : Triple, i.operand ≠ .implied →
    render i = mnemonicText i.operation ++ [' '] ++ renderOperand i.operand

/-- R132: equal payloads render alike in the three absolute forms and in the three zero-page forms, so text does not
identify the mode; no mnemonic has both a Relative and a ZeroPage form. -/
def Obligations.RenderingLosesTheMode : Prop :=
  (∀ (op : Operation) (v : Word) (n : Nat),
    render ⟨op, .absoluteX v, n⟩ = render ⟨op, .absolute v, n⟩ ∧
    render ⟨op, .absoluteY v, n⟩ = render ⟨op, .absolute v, n⟩) ∧
  (∀ (op : Operation) (v : Byte) (n : Nat),
    render ⟨op, .zeroPageX v, n⟩ = render ⟨op, .zeroPage v, n⟩ ∧
    render ⟨op, .zeroPageY v, n⟩ = render ⟨op, .zeroPage v, n⟩) ∧
  ¬ ∃ op b b', opcodeTable b = some (op, .relative) ∧ opcodeTable b' = some (op, .zeroPage)

/-- R14, R120 to R131 (95 section 2.5): the length of every rendered text, and that it is ASCII with no trailing space. -/
def Obligations.RenderedTextIsShortAscii : Prop :=
  ∀ i : Triple,
    (render i).length = (match i.operand with
      | .implied => 3
      | .accumulator => 5
      | .relative _ | .zeroPage _ | .zeroPageX _ | .zeroPageY _ => 7
      | .immediate _ => 8
      | .absolute _ | .absoluteX _ | .absoluteY _ => 9
      | .indirect _ | .indexedIndirect _ | .indirectIndexed _ => 11) ∧
    (∀ c ∈ render i, c.toNat < 128) ∧ (render i).getLast? ≠ some ' '

/-- Within one mode the operand's text loses nothing: two operands in range with the same tag and the same text are the
same operand (R14, R121 to R130). -/
def Obligations.TextIdentifiesOperandWithinMode : Prop :=
  ∀ o o' : Operand, o.wf = true → o'.wf = true → o.mode = o'.mode → renderOperand o = renderOperand o' → o = o'

/-! ### Ports -/

/-- R156, R32: at the ports, for every input, the outputs pack the decode of `take(avail, [win0, win1, win2])`, and so of the
window presented; `valid` is 0 exactly in the three cases; and lanes that are not read do not matter. -/
def Obligations.PortsPackTheDecode : Prop :=
  (∀ (T : OpcodeTable) (p : PortIn),
    ifdOutputsWith T p = packPorts (decodeWith T ([p.win0, p.win1, p.win2].take p.avail.toNat))) ∧
  (∀ (T : OpcodeTable) (w : List Byte), ifdOutputsWith T (PortIn.ofWindow w) = packPorts (decodeWith T w)) ∧
  (∀ (T : OpcodeTable) (p : PortIn), (ifdOutputsWith T p).valid = 0#1 ↔
    p.avail = 0#2 ∨ T p.win0 = none ∨ ∃ op m, T p.win0 = some (op, m) ∧ p.avail.toNat < m.size) ∧
  ∀ (T : OpcodeTable) (p : PortIn) (x y z : Byte),
    (p.avail = 0#2 → ifdOutputsWith T { p with win0 := z, win1 := x, win2 := y } = ifdOutputsWith T p) ∧
    (p.avail.toNat ≤ 1 → ifdOutputsWith T { p with win1 := x, win2 := y } = ifdOutputsWith T p) ∧
    (p.avail.toNat ≤ 2 → ifdOutputsWith T { p with win2 := y } = ifdOutputsWith T p) ∧
    (∀ op m, T p.win0 = some (op, m) → m.width = 0 →
      ifdOutputsWith T { p with win1 := x, win2 := y } = ifdOutputsWith T p) ∧
    ∀ op m, T p.win0 = some (op, m) → m.width ≤ 1 →
      ifdOutputsWith T { p with win2 := y } = ifdOutputsWith T p

/-- R33, R34, R35: when `valid` is 0 every port is 0; when it is 1 each port holds its part of the instruction, from which
the host reads back exactly the instruction decoded; and the size port is a legal size exactly when `valid` is 1. -/
def Obligations.PortsReadBackTheInstruction : Prop :=
  (∀ (T : OpcodeTable) (p : PortIn), (ifdOutputsWith T p).valid = 0#1 →
    ifdOutputsWith T p = ⟨0#1, 0#6, 0#4, 0#16, 0#2⟩) ∧
  (∀ (T : OpcodeTable) (p : PortIn) (i : InstructionOf T), decodeWith T p.lanes = some i →
    (ifdOutputsWith T p).valid = 1#1 ∧ (ifdOutputsWith T p).op.toNat = i.operation.id ∧
    (ifdOutputsWith T p).mode.toNat = i.operand.mode.id ∧ (ifdOutputsWith T p).size.toNat = i.size ∧
    (match i.operand with
      | .absolute v | .absoluteX v | .absoluteY v | .indirect v => (ifdOutputsWith T p).opnd = v
      | .immediate v | .indexedIndirect v | .indirectIndexed v | .zeroPage v | .zeroPageX v | .zeroPageY v =>
        (ifdOutputsWith T p).opnd.toNat = v.toNat
      | .relative k => (ifdOutputsWith T p).opnd.toNat = (byteOf k).toNat ∧
        sint8 (lowByte (ifdOutputsWith T p).opnd) = k
      | .accumulator | .implied => (ifdOutputsWith T p).opnd = 0#16)) ∧
  (∀ (T : OpcodeTable) (p : PortIn), (ifdOutputsWith T p).read = (decodeWith T p.lanes).map InstructionOf.toTriple) ∧
  ∀ (T : OpcodeTable) (p : PortIn), (ifdOutputsWith T p).valid = 1#1 ↔ (ifdOutputsWith T p).size ≠ 0#2

/-- R23, R24: the ids are the positions in the alphabetical order of the mnemonics and in the source's order of the modes,
56 and 13 of them, and each names its value. -/
def Obligations.PortIdsNameTheirValues : Prop :=
  (∀ op : Operation, op.id < 56 ∧ Operation.ofId op.id = some op) ∧
  (∀ m : AddressingMode, m.id < 13 ∧ AddressingMode.ofId m.id = some m) ∧
  (∀ op op' : Operation, op.id < op'.id ↔ (mnemonicText op).map Char.toNat < (mnemonicText op').map Char.toNat) ∧
  allOperations.length = 56 ∧ allModes.length = 13 ∧
  allModes = [.absolute, .absoluteX, .absoluteY, .accumulator, .immediate, .implied, .indexedIndirect, .indirect,
    .indirectIndexed, .relative, .zeroPage, .zeroPageX, .zeroPageY]

/-! ### The instructions, family by family (files 41 to 46) -/

/-- The decode rule of every mnemonic of the family, R200 to R205: its id, exactly its opcode bytes with mode and size, what a
window at each decodes to and how that renders, truncation, what the FSEQ step of it writes, and the bytes the rule names as undefined. -/
def Obligations.LoadStoreDecodeRules : Prop :=
  MnemonicRule .lda 29 ['L', 'D', 'A']
    [(0xA9#8, .immediate, 2), (0xA5#8, .zeroPage, 2), (0xB5#8, .zeroPageX, 2),
     (0xAD#8, .absolute, 3), (0xBD#8, .absoluteX, 3), (0xB9#8, .absoluteY, 3),
     (0xA1#8, .indexedIndirect, 2), (0xB1#8, .indirectIndexed, 2)]
    [] ∧
  MnemonicRule .ldx 30 ['L', 'D', 'X']
    [(0xA2#8, .immediate, 2), (0xA6#8, .zeroPage, 2), (0xB6#8, .zeroPageY, 2),
     (0xAE#8, .absolute, 3), (0xBE#8, .absoluteY, 3)]
    [0xB2#8] ∧
  MnemonicRule .ldy 31 ['L', 'D', 'Y']
    [(0xA0#8, .immediate, 2), (0xA4#8, .zeroPage, 2), (0xB4#8, .zeroPageX, 2),
     (0xAC#8, .absolute, 3), (0xBC#8, .absoluteX, 3)]
    [] ∧
  MnemonicRule .sta 47 ['S', 'T', 'A']
    [(0x85#8, .zeroPage, 2), (0x95#8, .zeroPageX, 2), (0x8D#8, .absolute, 3),
     (0x9D#8, .absoluteX, 3), (0x99#8, .absoluteY, 3), (0x81#8, .indexedIndirect, 2),
     (0x91#8, .indirectIndexed, 2)]
    [0x89#8] ∧
  MnemonicRule .stx 48 ['S', 'T', 'X']
    [(0x86#8, .zeroPage, 2), (0x96#8, .zeroPageY, 2), (0x8E#8, .absolute, 3)]
    [0x9E#8] ∧
  MnemonicRule .sty 49 ['S', 'T', 'Y']
    [(0x84#8, .zeroPage, 2), (0x94#8, .zeroPageX, 2), (0x8C#8, .absolute, 3)]
    [0x9C#8]

/-- Every instruction of the family completes (R200 to R205, R161): `exec` answers the state with the pair appended and `off`
advanced by the size, in every state, and `step` does wherever the bytes stand at `off` of a ready state. -/
def Obligations.LoadStoreInstructionsComplete : Prop :=
  ∀ (v h l : Byte),
    CompletesAs (.ldaImm v) [0xA9#8, v] .lda (.immediate v) 2 ∧
    CompletesAs (.ldaZp v) [0xA5#8, v] .lda (.zeroPage v) 2 ∧
    CompletesAs (.ldaZpx v) [0xB5#8, v] .lda (.zeroPageX v) 2 ∧
    CompletesAs (.ldaAbs (bothBytes h l)) [0xAD#8, h, l] .lda (.absolute (bothBytes h l)) 3 ∧
    CompletesAs (.ldaAbx (bothBytes h l)) [0xBD#8, h, l] .lda (.absoluteX (bothBytes h l)) 3 ∧
    CompletesAs (.ldaAby (bothBytes h l)) [0xB9#8, h, l] .lda (.absoluteY (bothBytes h l)) 3 ∧
    CompletesAs (.ldaIzx v) [0xA1#8, v] .lda (.indexedIndirect v) 2 ∧
    CompletesAs (.ldaIzy v) [0xB1#8, v] .lda (.indirectIndexed v) 2 ∧
    CompletesAs (.ldxImm v) [0xA2#8, v] .ldx (.immediate v) 2 ∧
    CompletesAs (.ldxZp v) [0xA6#8, v] .ldx (.zeroPage v) 2 ∧
    CompletesAs (.ldxZpy v) [0xB6#8, v] .ldx (.zeroPageY v) 2 ∧
    CompletesAs (.ldxAbs (bothBytes h l)) [0xAE#8, h, l] .ldx (.absolute (bothBytes h l)) 3 ∧
    CompletesAs (.ldxAby (bothBytes h l)) [0xBE#8, h, l] .ldx (.absoluteY (bothBytes h l)) 3 ∧
    CompletesAs (.ldyImm v) [0xA0#8, v] .ldy (.immediate v) 2 ∧
    CompletesAs (.ldyZp v) [0xA4#8, v] .ldy (.zeroPage v) 2 ∧
    CompletesAs (.ldyZpx v) [0xB4#8, v] .ldy (.zeroPageX v) 2 ∧
    CompletesAs (.ldyAbs (bothBytes h l)) [0xAC#8, h, l] .ldy (.absolute (bothBytes h l)) 3 ∧
    CompletesAs (.ldyAbx (bothBytes h l)) [0xBC#8, h, l] .ldy (.absoluteX (bothBytes h l)) 3 ∧
    CompletesAs (.staZp v) [0x85#8, v] .sta (.zeroPage v) 2 ∧
    CompletesAs (.staZpx v) [0x95#8, v] .sta (.zeroPageX v) 2 ∧
    CompletesAs (.staAbs (bothBytes h l)) [0x8D#8, h, l] .sta (.absolute (bothBytes h l)) 3 ∧
    CompletesAs (.staAbx (bothBytes h l)) [0x9D#8, h, l] .sta (.absoluteX (bothBytes h l)) 3 ∧
    CompletesAs (.staAby (bothBytes h l)) [0x99#8, h, l] .sta (.absoluteY (bothBytes h l)) 3 ∧
    CompletesAs (.staIzx v) [0x81#8, v] .sta (.indexedIndirect v) 2 ∧
    CompletesAs (.staIzy v) [0x91#8, v] .sta (.indirectIndexed v) 2 ∧
    CompletesAs (.stxZp v) [0x86#8, v] .stx (.zeroPage v) 2 ∧
    CompletesAs (.stxZpy v) [0x96#8, v] .stx (.zeroPageY v) 2 ∧
    CompletesAs (.stxAbs (bothBytes h l)) [0x8E#8, h, l] .stx (.absolute (bothBytes h l)) 3 ∧
    CompletesAs (.styZp v) [0x84#8, v] .sty (.zeroPage v) 2 ∧
    CompletesAs (.styZpx v) [0x94#8, v] .sty (.zeroPageX v) 2 ∧
    CompletesAs (.styAbs (bothBytes h l)) [0x8C#8, h, l] .sty (.absolute (bothBytes h l)) 3

/-- The decode rule of every mnemonic of the family, R206 to R215: its id, exactly its opcode bytes with mode and size, what a
window at each decodes to and how that renders, truncation, what the FSEQ step of it writes, and the bytes the rule names as undefined. -/
def Obligations.TransferStackDecodeRules : Prop :=
  MnemonicRule .tax 50 ['T', 'A', 'X']
    [(0xAA#8, .implied, 1)]
    [] ∧
  MnemonicRule .tay 51 ['T', 'A', 'Y']
    [(0xA8#8, .implied, 1)]
    [] ∧
  MnemonicRule .tsx 52 ['T', 'S', 'X']
    [(0xBA#8, .implied, 1)]
    [] ∧
  MnemonicRule .txa 53 ['T', 'X', 'A']
    [(0x8A#8, .implied, 1)]
    [] ∧
  MnemonicRule .txs 54 ['T', 'X', 'S']
    [(0x9A#8, .implied, 1)]
    [] ∧
  MnemonicRule .tya 55 ['T', 'Y', 'A']
    [(0x98#8, .implied, 1)]
    [] ∧
  MnemonicRule .pha 35 ['P', 'H', 'A']
    [(0x48#8, .implied, 1)]
    [] ∧
  MnemonicRule .php 36 ['P', 'H', 'P']
    [(0x08#8, .implied, 1)]
    [0x07#8] ∧
  MnemonicRule .pla 37 ['P', 'L', 'A']
    [(0x68#8, .implied, 1)]
    [] ∧
  MnemonicRule .plp 38 ['P', 'L', 'P']
    [(0x28#8, .implied, 1)]
    []

/-- Every instruction of the family completes (R206 to R215, R161): `exec` answers the state with the pair appended and `off`
advanced by the size, in every state, and `step` does wherever the bytes stand at `off` of a ready state. -/
def Obligations.TransferStackInstructionsComplete : Prop :=
  CompletesAs .tax [0xAA#8] .tax .implied 1 ∧
  CompletesAs .tay [0xA8#8] .tay .implied 1 ∧
  CompletesAs .tsx [0xBA#8] .tsx .implied 1 ∧
  CompletesAs .txa [0x8A#8] .txa .implied 1 ∧
  CompletesAs .txs [0x9A#8] .txs .implied 1 ∧
  CompletesAs .tya [0x98#8] .tya .implied 1 ∧
  CompletesAs .pha [0x48#8] .pha .implied 1 ∧
  CompletesAs .php [0x08#8] .php .implied 1 ∧
  CompletesAs .pla [0x68#8] .pla .implied 1 ∧
  CompletesAs .plp [0x28#8] .plp .implied 1

/-- The decode rule of every mnemonic of the family, R216 to R224: its id, exactly its opcode bytes with mode and size, what a
window at each decodes to and how that renders, truncation, what the FSEQ step of it writes, and the bytes the rule names as undefined. -/
def Obligations.ArithLogicDecodeRules : Prop :=
  MnemonicRule .adc 0 ['A', 'D', 'C']
    [(0x69#8, .immediate, 2), (0x65#8, .zeroPage, 2), (0x75#8, .zeroPageX, 2),
     (0x6D#8, .absolute, 3), (0x7D#8, .absoluteX, 3), (0x79#8, .absoluteY, 3),
     (0x61#8, .indexedIndirect, 2), (0x71#8, .indirectIndexed, 2)]
    [] ∧
  MnemonicRule .sbc 43 ['S', 'B', 'C']
    [(0xE9#8, .immediate, 2), (0xE5#8, .zeroPage, 2), (0xF5#8, .zeroPageX, 2),
     (0xED#8, .absolute, 3), (0xFD#8, .absoluteX, 3), (0xF9#8, .absoluteY, 3),
     (0xE1#8, .indexedIndirect, 2), (0xF1#8, .indirectIndexed, 2)]
    [0xEB#8] ∧
  MnemonicRule .and 1 ['A', 'N', 'D']
    [(0x29#8, .immediate, 2), (0x25#8, .zeroPage, 2), (0x35#8, .zeroPageX, 2),
     (0x2D#8, .absolute, 3), (0x3D#8, .absoluteX, 3), (0x39#8, .absoluteY, 3),
     (0x21#8, .indexedIndirect, 2), (0x31#8, .indirectIndexed, 2)]
    [] ∧
  MnemonicRule .ora 34 ['O', 'R', 'A']
    [(0x09#8, .immediate, 2), (0x05#8, .zeroPage, 2), (0x15#8, .zeroPageX, 2),
     (0x0D#8, .absolute, 3), (0x1D#8, .absoluteX, 3), (0x19#8, .absoluteY, 3),
     (0x01#8, .indexedIndirect, 2), (0x11#8, .indirectIndexed, 2)]
    [] ∧
  MnemonicRule .eor 23 ['E', 'O', 'R']
    [(0x49#8, .immediate, 2), (0x45#8, .zeroPage, 2), (0x55#8, .zeroPageX, 2),
     (0x4D#8, .absolute, 3), (0x5D#8, .absoluteX, 3), (0x59#8, .absoluteY, 3),
     (0x41#8, .indexedIndirect, 2), (0x51#8, .indirectIndexed, 2)]
    [] ∧
  MnemonicRule .cmp 17 ['C', 'M', 'P']
    [(0xC9#8, .immediate, 2), (0xC5#8, .zeroPage, 2), (0xD5#8, .zeroPageX, 2),
     (0xCD#8, .absolute, 3), (0xDD#8, .absoluteX, 3), (0xD9#8, .absoluteY, 3),
     (0xC1#8, .indexedIndirect, 2), (0xD1#8, .indirectIndexed, 2)]
    [] ∧
  MnemonicRule .cpx 18 ['C', 'P', 'X']
    [(0xE0#8, .immediate, 2), (0xE4#8, .zeroPage, 2), (0xEC#8, .absolute, 3)]
    [0xF4#8, 0xFC#8] ∧
  MnemonicRule .cpy 19 ['C', 'P', 'Y']
    [(0xC0#8, .immediate, 2), (0xC4#8, .zeroPage, 2), (0xCC#8, .absolute, 3)]
    [0xD4#8, 0xDC#8] ∧
  MnemonicRule .bit 6 ['B', 'I', 'T']
    [(0x24#8, .zeroPage, 2), (0x2C#8, .absolute, 3)]
    [0x89#8, 0x34#8, 0x3C#8]

/-- Every instruction of the family completes (R216 to R224, R161): `exec` answers the state with the pair appended and `off`
advanced by the size, in every state, and `step` does wherever the bytes stand at `off` of a ready state. -/
def Obligations.ArithLogicInstructionsComplete : Prop :=
  ∀ (v h l : Byte),
    CompletesAs (.adcImm v) [0x69#8, v] .adc (.immediate v) 2 ∧
    CompletesAs (.adcZp v) [0x65#8, v] .adc (.zeroPage v) 2 ∧
    CompletesAs (.adcZpx v) [0x75#8, v] .adc (.zeroPageX v) 2 ∧
    CompletesAs (.adcAbs (bothBytes h l)) [0x6D#8, h, l] .adc (.absolute (bothBytes h l)) 3 ∧
    CompletesAs (.adcAbx (bothBytes h l)) [0x7D#8, h, l] .adc (.absoluteX (bothBytes h l)) 3 ∧
    CompletesAs (.adcAby (bothBytes h l)) [0x79#8, h, l] .adc (.absoluteY (bothBytes h l)) 3 ∧
    CompletesAs (.adcIzx v) [0x61#8, v] .adc (.indexedIndirect v) 2 ∧
    CompletesAs (.adcIzy v) [0x71#8, v] .adc (.indirectIndexed v) 2 ∧
    CompletesAs (.sbcImm v) [0xE9#8, v] .sbc (.immediate v) 2 ∧
    CompletesAs (.sbcZp v) [0xE5#8, v] .sbc (.zeroPage v) 2 ∧
    CompletesAs (.sbcZpx v) [0xF5#8, v] .sbc (.zeroPageX v) 2 ∧
    CompletesAs (.sbcAbs (bothBytes h l)) [0xED#8, h, l] .sbc (.absolute (bothBytes h l)) 3 ∧
    CompletesAs (.sbcAbx (bothBytes h l)) [0xFD#8, h, l] .sbc (.absoluteX (bothBytes h l)) 3 ∧
    CompletesAs (.sbcAby (bothBytes h l)) [0xF9#8, h, l] .sbc (.absoluteY (bothBytes h l)) 3 ∧
    CompletesAs (.sbcIzx v) [0xE1#8, v] .sbc (.indexedIndirect v) 2 ∧
    CompletesAs (.sbcIzy v) [0xF1#8, v] .sbc (.indirectIndexed v) 2 ∧
    CompletesAs (.andImm v) [0x29#8, v] .and (.immediate v) 2 ∧
    CompletesAs (.andZp v) [0x25#8, v] .and (.zeroPage v) 2 ∧
    CompletesAs (.andZpx v) [0x35#8, v] .and (.zeroPageX v) 2 ∧
    CompletesAs (.andAbs (bothBytes h l)) [0x2D#8, h, l] .and (.absolute (bothBytes h l)) 3 ∧
    CompletesAs (.andAbx (bothBytes h l)) [0x3D#8, h, l] .and (.absoluteX (bothBytes h l)) 3 ∧
    CompletesAs (.andAby (bothBytes h l)) [0x39#8, h, l] .and (.absoluteY (bothBytes h l)) 3 ∧
    CompletesAs (.andIzx v) [0x21#8, v] .and (.indexedIndirect v) 2 ∧
    CompletesAs (.andIzy v) [0x31#8, v] .and (.indirectIndexed v) 2 ∧
    CompletesAs (.oraImm v) [0x09#8, v] .ora (.immediate v) 2 ∧
    CompletesAs (.oraZp v) [0x05#8, v] .ora (.zeroPage v) 2 ∧
    CompletesAs (.oraZpx v) [0x15#8, v] .ora (.zeroPageX v) 2 ∧
    CompletesAs (.oraAbs (bothBytes h l)) [0x0D#8, h, l] .ora (.absolute (bothBytes h l)) 3 ∧
    CompletesAs (.oraAbx (bothBytes h l)) [0x1D#8, h, l] .ora (.absoluteX (bothBytes h l)) 3 ∧
    CompletesAs (.oraAby (bothBytes h l)) [0x19#8, h, l] .ora (.absoluteY (bothBytes h l)) 3 ∧
    CompletesAs (.oraIzx v) [0x01#8, v] .ora (.indexedIndirect v) 2 ∧
    CompletesAs (.oraIzy v) [0x11#8, v] .ora (.indirectIndexed v) 2 ∧
    CompletesAs (.eorImm v) [0x49#8, v] .eor (.immediate v) 2 ∧
    CompletesAs (.eorZp v) [0x45#8, v] .eor (.zeroPage v) 2 ∧
    CompletesAs (.eorZpx v) [0x55#8, v] .eor (.zeroPageX v) 2 ∧
    CompletesAs (.eorAbs (bothBytes h l)) [0x4D#8, h, l] .eor (.absolute (bothBytes h l)) 3 ∧
    CompletesAs (.eorAbx (bothBytes h l)) [0x5D#8, h, l] .eor (.absoluteX (bothBytes h l)) 3 ∧
    CompletesAs (.eorAby (bothBytes h l)) [0x59#8, h, l] .eor (.absoluteY (bothBytes h l)) 3 ∧
    CompletesAs (.eorIzx v) [0x41#8, v] .eor (.indexedIndirect v) 2 ∧
    CompletesAs (.eorIzy v) [0x51#8, v] .eor (.indirectIndexed v) 2 ∧
    CompletesAs (.cmpImm v) [0xC9#8, v] .cmp (.immediate v) 2 ∧
    CompletesAs (.cmpZp v) [0xC5#8, v] .cmp (.zeroPage v) 2 ∧
    CompletesAs (.cmpZpx v) [0xD5#8, v] .cmp (.zeroPageX v) 2 ∧
    CompletesAs (.cmpAbs (bothBytes h l)) [0xCD#8, h, l] .cmp (.absolute (bothBytes h l)) 3 ∧
    CompletesAs (.cmpAbx (bothBytes h l)) [0xDD#8, h, l] .cmp (.absoluteX (bothBytes h l)) 3 ∧
    CompletesAs (.cmpAby (bothBytes h l)) [0xD9#8, h, l] .cmp (.absoluteY (bothBytes h l)) 3 ∧
    CompletesAs (.cmpIzx v) [0xC1#8, v] .cmp (.indexedIndirect v) 2 ∧
    CompletesAs (.cmpIzy v) [0xD1#8, v] .cmp (.indirectIndexed v) 2 ∧
    CompletesAs (.cpxImm v) [0xE0#8, v] .cpx (.immediate v) 2 ∧
    CompletesAs (.cpxZp v) [0xE4#8, v] .cpx (.zeroPage v) 2 ∧
    CompletesAs (.cpxAbs (bothBytes h l)) [0xEC#8, h, l] .cpx (.absolute (bothBytes h l)) 3 ∧
    CompletesAs (.cpyImm v) [0xC0#8, v] .cpy (.immediate v) 2 ∧
    CompletesAs (.cpyZp v) [0xC4#8, v] .cpy (.zeroPage v) 2 ∧
    CompletesAs (.cpyAbs (bothBytes h l)) [0xCC#8, h, l] .cpy (.absolute (bothBytes h l)) 3 ∧
    CompletesAs (.bitZp v) [0x24#8, v] .bit (.zeroPage v) 2 ∧
    CompletesAs (.bitAbs (bothBytes h l)) [0x2C#8, h, l] .bit (.absolute (bothBytes h l)) 3

/-- The decode rule of every mnemonic of the family, R225 to R234: its id, exactly its opcode bytes with mode and size, what a
window at each decodes to and how that renders, truncation, what the FSEQ step of it writes, and the bytes the rule names as undefined. -/
def Obligations.ShiftIncDecDecodeRules : Prop :=
  MnemonicRule .asl 2 ['A', 'S', 'L']
    [(0x06#8, .zeroPage, 2), (0x16#8, .zeroPageX, 2), (0x0E#8, .absolute, 3),
     (0x1E#8, .absoluteX, 3), (0x0A#8, .accumulator, 1)]
    [] ∧
  MnemonicRule .lsr 32 ['L', 'S', 'R']
    [(0x46#8, .zeroPage, 2), (0x56#8, .zeroPageX, 2), (0x4E#8, .absolute, 3),
     (0x5E#8, .absoluteX, 3), (0x4A#8, .accumulator, 1)]
    [] ∧
  MnemonicRule .rol 39 ['R', 'O', 'L']
    [(0x26#8, .zeroPage, 2), (0x36#8, .zeroPageX, 2), (0x2E#8, .absolute, 3),
     (0x3E#8, .absoluteX, 3), (0x2A#8, .accumulator, 1)]
    [] ∧
  MnemonicRule .ror 40 ['R', 'O', 'R']
    [(0x66#8, .zeroPage, 2), (0x76#8, .zeroPageX, 2), (0x6E#8, .absolute, 3),
     (0x7E#8, .absoluteX, 3), (0x6A#8, .accumulator, 1)]
    [] ∧
  MnemonicRule .inc 24 ['I', 'N', 'C']
    [(0xE6#8, .zeroPage, 2), (0xF6#8, .zeroPageX, 2), (0xEE#8, .absolute, 3),
     (0xFE#8, .absoluteX, 3)]
    [0x1A#8] ∧
  MnemonicRule .dec 20 ['D', 'E', 'C']
    [(0xC6#8, .zeroPage, 2), (0xD6#8, .zeroPageX, 2), (0xCE#8, .absolute, 3),
     (0xDE#8, .absoluteX, 3)]
    [0x3A#8] ∧
  MnemonicRule .inx 25 ['I', 'N', 'X']
    [(0xE8#8, .implied, 1)]
    [] ∧
  MnemonicRule .iny 26 ['I', 'N', 'Y']
    [(0xC8#8, .implied, 1)]
    [] ∧
  MnemonicRule .dex 21 ['D', 'E', 'X']
    [(0xCA#8, .implied, 1)]
    [] ∧
  MnemonicRule .dey 22 ['D', 'E', 'Y']
    [(0x88#8, .implied, 1)]
    []

/-- Every instruction of the family completes (R225 to R234, R161): `exec` answers the state with the pair appended and `off`
advanced by the size, in every state, and `step` does wherever the bytes stand at `off` of a ready state. -/
def Obligations.ShiftIncDecInstructionsComplete : Prop :=
  ∀ (v h l : Byte),
    CompletesAs (.aslZp v) [0x06#8, v] .asl (.zeroPage v) 2 ∧
    CompletesAs (.aslZpx v) [0x16#8, v] .asl (.zeroPageX v) 2 ∧
    CompletesAs (.aslAbs (bothBytes h l)) [0x0E#8, h, l] .asl (.absolute (bothBytes h l)) 3 ∧
    CompletesAs (.aslAbx (bothBytes h l)) [0x1E#8, h, l] .asl (.absoluteX (bothBytes h l)) 3 ∧
    CompletesAs .aslAcc [0x0A#8] .asl .accumulator 1 ∧
    CompletesAs (.lsrZp v) [0x46#8, v] .lsr (.zeroPage v) 2 ∧
    CompletesAs (.lsrZpx v) [0x56#8, v] .lsr (.zeroPageX v) 2 ∧
    CompletesAs (.lsrAbs (bothBytes h l)) [0x4E#8, h, l] .lsr (.absolute (bothBytes h l)) 3 ∧
    CompletesAs (.lsrAbx (bothBytes h l)) [0x5E#8, h, l] .lsr (.absoluteX (bothBytes h l)) 3 ∧
    CompletesAs .lsrAcc [0x4A#8] .lsr .accumulator 1 ∧
    CompletesAs (.rolZp v) [0x26#8, v] .rol (.zeroPage v) 2 ∧
    CompletesAs (.rolZpx v) [0x36#8, v] .rol (.zeroPageX v) 2 ∧
    CompletesAs (.rolAbs (bothBytes h l)) [0x2E#8, h, l] .rol (.absolute (bothBytes h l)) 3 ∧
    CompletesAs (.rolAbx (bothBytes h l)) [0x3E#8, h, l] .rol (.absoluteX (bothBytes h l)) 3 ∧
    CompletesAs .rolAcc [0x2A#8] .rol .accumulator 1 ∧
    CompletesAs (.rorZp v) [0x66#8, v] .ror (.zeroPage v) 2 ∧
    CompletesAs (.rorZpx v) [0x76#8, v] .ror (.zeroPageX v) 2 ∧
    CompletesAs (.rorAbs (bothBytes h l)) [0x6E#8, h, l] .ror (.absolute (bothBytes h l)) 3 ∧
    CompletesAs (.rorAbx (bothBytes h l)) [0x7E#8, h, l] .ror (.absoluteX (bothBytes h l)) 3 ∧
    CompletesAs .rorAcc [0x6A#8] .ror .accumulator 1 ∧
    CompletesAs (.incZp v) [0xE6#8, v] .inc (.zeroPage v) 2 ∧
    CompletesAs (.incZpx v) [0xF6#8, v] .inc (.zeroPageX v) 2 ∧
    CompletesAs (.incAbs (bothBytes h l)) [0xEE#8, h, l] .inc (.absolute (bothBytes h l)) 3 ∧
    CompletesAs (.incAbx (bothBytes h l)) [0xFE#8, h, l] .inc (.absoluteX (bothBytes h l)) 3 ∧
    CompletesAs (.decZp v) [0xC6#8, v] .dec (.zeroPage v) 2 ∧
    CompletesAs (.decZpx v) [0xD6#8, v] .dec (.zeroPageX v) 2 ∧
    CompletesAs (.decAbs (bothBytes h l)) [0xCE#8, h, l] .dec (.absolute (bothBytes h l)) 3 ∧
    CompletesAs (.decAbx (bothBytes h l)) [0xDE#8, h, l] .dec (.absoluteX (bothBytes h l)) 3 ∧
    CompletesAs .inx [0xE8#8] .inx .implied 1 ∧
    CompletesAs .iny [0xC8#8] .iny .implied 1 ∧
    CompletesAs .dex [0xCA#8] .dex .implied 1 ∧
    CompletesAs .dey [0x88#8] .dey .implied 1

/-- The decode rule of every mnemonic of the family, R235 to R242: its id, exactly its opcode bytes with mode and size, what a
window at each decodes to and how that renders, truncation, what the FSEQ step of it writes, and the bytes the rule names as undefined. -/
def Obligations.BranchDecodeRules : Prop :=
  MnemonicRule .bcc 3 ['B', 'C', 'C']
    [(0x90#8, .relative, 2)]
    [] ∧
  MnemonicRule .bcs 4 ['B', 'C', 'S']
    [(0xB0#8, .relative, 2)]
    [] ∧
  MnemonicRule .beq 5 ['B', 'E', 'Q']
    [(0xF0#8, .relative, 2)]
    [] ∧
  MnemonicRule .bmi 7 ['B', 'M', 'I']
    [(0x30#8, .relative, 2)]
    [] ∧
  MnemonicRule .bne 8 ['B', 'N', 'E']
    [(0xD0#8, .relative, 2)]
    [] ∧
  MnemonicRule .bpl 9 ['B', 'P', 'L']
    [(0x10#8, .relative, 2)]
    [] ∧
  MnemonicRule .bvc 11 ['B', 'V', 'C']
    [(0x50#8, .relative, 2)]
    [] ∧
  MnemonicRule .bvs 12 ['B', 'V', 'S']
    [(0x70#8, .relative, 2)]
    []

/-- Every instruction of the family completes (R235 to R242, R161): `exec` answers the state with the pair appended and `off`
advanced by the size, in every state, and `step` does wherever the bytes stand at `off` of a ready state. -/
def Obligations.BranchInstructionsComplete : Prop :=
  (∀ v : Byte,
    CompletesAs (.bccRel v.toInt) [0x90#8, v] .bcc (.relative v.toInt) 2 ∧
    CompletesAs (.bcsRel v.toInt) [0xB0#8, v] .bcs (.relative v.toInt) 2 ∧
    CompletesAs (.beqRel v.toInt) [0xF0#8, v] .beq (.relative v.toInt) 2 ∧
    CompletesAs (.bmiRel v.toInt) [0x30#8, v] .bmi (.relative v.toInt) 2 ∧
    CompletesAs (.bneRel v.toInt) [0xD0#8, v] .bne (.relative v.toInt) 2 ∧
    CompletesAs (.bplRel v.toInt) [0x10#8, v] .bpl (.relative v.toInt) 2 ∧
    CompletesAs (.bvcRel v.toInt) [0x50#8, v] .bvc (.relative v.toInt) 2 ∧
    CompletesAs (.bvsRel v.toInt) [0x70#8, v] .bvs (.relative v.toInt) 2) ∧
  ∀ k : Int,
    RecordsAs (.bccRel k) .bcc (.relative k) 2 ∧
    RecordsAs (.bcsRel k) .bcs (.relative k) 2 ∧
    RecordsAs (.beqRel k) .beq (.relative k) 2 ∧
    RecordsAs (.bmiRel k) .bmi (.relative k) 2 ∧
    RecordsAs (.bneRel k) .bne (.relative k) 2 ∧
    RecordsAs (.bplRel k) .bpl (.relative k) 2 ∧
    RecordsAs (.bvcRel k) .bvc (.relative k) 2 ∧
    RecordsAs (.bvsRel k) .bvs (.relative k) 2

/-- The decode rule of every mnemonic of the family, R243 to R248: its id, exactly its opcode bytes with mode and size, what a
window at each decodes to and how that renders, truncation, what the FSEQ step of it writes, and the bytes the rule names as undefined. -/
def Obligations.JumpSystemDecodeRules : Prop :=
  MnemonicRule .jmp 27 ['J', 'M', 'P']
    [(0x4C#8, .absolute, 3), (0x6C#8, .indirect, 3)]
    [0x7C#8] ∧
  MnemonicRule .jsr 28 ['J', 'S', 'R']
    [(0x20#8, .absolute, 3)]
    [] ∧
  MnemonicRule .rts 42 ['R', 'T', 'S']
    [(0x60#8, .implied, 1)]
    [] ∧
  MnemonicRule .rti 41 ['R', 'T', 'I']
    [(0x40#8, .implied, 1)]
    [] ∧
  MnemonicRule .brk 10 ['B', 'R', 'K']
    [(0x00#8, .implied, 1)]
    [] ∧
  MnemonicRule .nop 33 ['N', 'O', 'P']
    [(0xEA#8, .implied, 1)]
    []

/-- Every instruction of the family completes (R243 to R248, R161): `exec` answers the state with the pair appended and `off`
advanced by the size, in every state, and `step` does wherever the bytes stand at `off` of a ready state. -/
def Obligations.JumpSystemInstructionsComplete : Prop :=
  ∀ (h l : Byte),
    CompletesAs (.jmpAbs (bothBytes h l)) [0x4C#8, h, l] .jmp (.absolute (bothBytes h l)) 3 ∧
    CompletesAs (.jmpInd (bothBytes h l)) [0x6C#8, h, l] .jmp (.indirect (bothBytes h l)) 3 ∧
    CompletesAs (.jsrAbs (bothBytes h l)) [0x20#8, h, l] .jsr (.absolute (bothBytes h l)) 3 ∧
    CompletesAs .rts [0x60#8] .rts .implied 1 ∧
    CompletesAs .rti [0x40#8] .rti .implied 1 ∧
    CompletesAs .brk [0x00#8] .brk .implied 1 ∧
    CompletesAs .nop [0xEA#8] .nop .implied 1

/-- The decode rule of every mnemonic of the family, R249 to R255: its id, exactly its opcode bytes with mode and size, what a
window at each decodes to and how that renders, truncation, what the FSEQ step of it writes, and the bytes the rule names as undefined. -/
def Obligations.FlagMnemonicsDecodeRules : Prop :=
  MnemonicRule .clc 13 ['C', 'L', 'C']
    [(0x18#8, .implied, 1)]
    [] ∧
  MnemonicRule .cld 14 ['C', 'L', 'D']
    [(0xD8#8, .implied, 1)]
    [] ∧
  MnemonicRule .cli 15 ['C', 'L', 'I']
    [(0x58#8, .implied, 1)]
    [] ∧
  MnemonicRule .clv 16 ['C', 'L', 'V']
    [(0xB8#8, .implied, 1)]
    [] ∧
  MnemonicRule .sec 44 ['S', 'E', 'C']
    [(0x38#8, .implied, 1)]
    [] ∧
  MnemonicRule .sed 45 ['S', 'E', 'D']
    [(0xF8#8, .implied, 1)]
    [] ∧
  MnemonicRule .sei 46 ['S', 'E', 'I']
    [(0x78#8, .implied, 1)]
    []

/-- Every instruction of the family completes (R249 to R255, R161): `exec` answers the state with the pair appended and `off`
advanced by the size, in every state, and `step` does wherever the bytes stand at `off` of a ready state. -/
def Obligations.FlagMnemonicsInstructionsComplete : Prop :=
  CompletesAs .clc [0x18#8] .clc .implied 1 ∧
  CompletesAs .cld [0xD8#8] .cld .implied 1 ∧
  CompletesAs .cli [0x58#8] .cli .implied 1 ∧
  CompletesAs .clv [0xB8#8] .clv .implied 1 ∧
  CompletesAs .sec [0x38#8] .sec .implied 1 ∧
  CompletesAs .sed [0xF8#8] .sed .implied 1 ∧
  CompletesAs .sei [0x78#8] .sei .implied 1
end

