-- ==== Sys2Proof/Laws/Decode.lean ====
section
/-! SUPPORT. What the decode operation can do, for every table: one lemma for the whole of it, and the small lemmas of
the router, of EXTRACT and of the byte formulas. -/

namespace Sys2Proof

theorem payloadBytes_eq_width (o : Operand) : o.payloadBytes = o.mode.width := by cases o <;> rfl

theorem operand_bytes_length (o : Operand) : o.bytes.length = o.mode.width := by cases o <;> rfl

theorem size_pos (m : AddressingMode) : 1 ≤ m.size := by cases m <;> decide

theorem size_le_three (m : AddressingMode) : m.size ≤ 3 := by cases m <;> decide

theorem sint8_range (b : Byte) : -128 ≤ sint8 b ∧ sint8 b ≤ 127 := by
  unfold sint8
  have := b.isLt
  split <;> omega

theorem sint8_eq_toInt (b : Byte) : sint8 b = b.toInt := by
  unfold sint8
  rw [BitVec.toInt_eq_toNat_cond]
  split <;> split <;> omega

theorem byteOf_sint8 (b : Byte) : byteOf (sint8 b) = b := by
  revert b
  decide

theorem extract_wf (m : AddressingMode) (w : List Byte) : (extract m w).wf = true := by
  cases m <;> first
    | rfl
    | exact decide_eq_true (sint8_range _)

theorem joinBytes_toNat (h l : Byte) : (joinBytes h l).toNat = 256 * h.toNat + l.toNat := by
  have hh := h.isLt
  have hl := l.isLt
  have hor := Nat.two_pow_add_eq_or_of_lt (i := 8) (b := l.toNat) (by simpa using hl) h.toNat
  simp only [joinBytes, BitVec.toNat_or, BitVec.toNat_shiftLeft, BitVec.toNat_setWidth, Nat.shiftLeft_eq]
  rw [Nat.mod_eq_of_lt (a := h.toNat) (by omega), Nat.mod_eq_of_lt (a := l.toNat) (by omega),
    Nat.mod_eq_of_lt (by omega), Nat.mul_comm h.toNat, ← hor]

/-- An Instruction is determined by its triple. -/
theorem InstructionOf.eq_of_triple {T : OpcodeTable} {i j : InstructionOf T} (h : i.toTriple = j.toTriple) : i = j := by
  cases i
  cases j
  cases h
  rfl

/-- The size of an Instruction is 1, 2 or 3, by its type (R26). -/
theorem InstructionOf.size_range {T : OpcodeTable} (i : InstructionOf T) : 1 ≤ i.size ∧ i.size ≤ 3 := by
  rw [i.sizeIsModes]
  exact ⟨size_pos _, size_le_three _⟩

theorem lookup_of_none {T : OpcodeTable} {b : Byte} (h : T b = none) : lookup T b = none := by
  simpa [lookup] using h

theorem lookup_of_some {T : OpcodeTable} {b : Byte} {e : Operation × AddressingMode} (h : T b = some e) :
    lookup T b = some ⟨e, h⟩ := by
  simpa [lookup] using h

/-- Everything a decode can do, with the step that fails named (R146, R300). -/
theorem classifyWith_cases (T : OpcodeTable) (w : List Byte) :
    (w = [] ∧ classifyWith T w = .error .emptyWindow) ∨
    (∃ b rest, w = b :: rest ∧ T b = none ∧ classifyWith T w = .error .unmapped) ∨
    (∃ b rest op m, w = b :: rest ∧ T b = some (op, m) ∧ w.length < m.size ∧
      classifyWith T w = .error .truncated) ∨
    (∃ b rest op m i, w = b :: rest ∧ T b = some (op, m) ∧ m.size ≤ w.length ∧
      i.toTriple = ⟨op, extract m w, m.size⟩ ∧ classifyWith T w = .ok i) := by
  cases w with
  | nil => exact .inl ⟨rfl, rfl⟩
  | cons b rest =>
    cases hT : T b with
    | none => exact .inr (.inl ⟨b, rest, rfl, hT, by simp only [classifyWith, lookup_of_none hT]⟩)
    | some e =>
      obtain ⟨op, m⟩ := e
      by_cases hl : m.size ≤ (b :: rest).length
      · refine .inr (.inr (.inr ⟨b, rest, op, m, ⟨⟨op, extract m (b :: rest), m.size⟩, by rw [extract_mode],
          b, by rw [extract_mode, hT]⟩, rfl, hT, hl, rfl, ?_⟩))
        simp only [classifyWith, lookup_of_some hT, boundsPass, hl, decide_true, if_true]
        rfl
      · refine .inr (.inr (.inl ⟨b, rest, op, m, rfl, hT, by omega, ?_⟩))
        simp only [classifyWith, lookup_of_some hT, boundsPass, hl, decide_false, Bool.false_eq_true, if_false]

/-- A successful decode: the table entry, the bounds and the result. -/
theorem decodeWith_some {T : OpcodeTable} {w : List Byte} {i : InstructionOf T} (h : decodeWith T w = some i) :
    ∃ b rest op m, w = b :: rest ∧ T b = some (op, m) ∧ m.size ≤ w.length ∧
      i.toTriple = ⟨op, extract m w, m.size⟩ := by
  rcases classifyWith_cases T w with ⟨_, hc⟩ | ⟨_, _, _, _, hc⟩ | ⟨_, _, _, _, _, _, _, hc⟩ |
    ⟨b, rest, op, m, j, hw, hT, hl, hj, hc⟩ <;> rw [decodeWith, hc] at h
  · cases h
  · cases h
  · cases h
  · cases h
    exact ⟨b, rest, op, m, hw, hT, hl, hj⟩

/-- A populated slot and enough bytes decode. -/
theorem decodeWith_of_entry {T : OpcodeTable} {b : Byte} {rest : List Byte} {op : Operation} {m : AddressingMode}
    (hT : T b = some (op, m)) (hl : m.size ≤ (b :: rest).length) :
    ∃ i, classifyWith T (b :: rest) = .ok i ∧ decodeWith T (b :: rest) = some i ∧
      i.toTriple = ⟨op, extract m (b :: rest), m.size⟩ := by
  refine ⟨⟨⟨op, extract m (b :: rest), m.size⟩, by rw [extract_mode], b, by rw [extract_mode, hT]⟩, ?_, ?_, rfl⟩ <;>
    simp only [decodeWith, classifyWith, lookup_of_some hT, boundsPass, hl, decide_true, if_true] <;> rfl

/-- An empty slot does not decode. -/
theorem decodeWith_of_unmapped {T : OpcodeTable} {b : Byte} {rest : List Byte} (hT : T b = none) :
    decodeWith T (b :: rest) = none := by
  simp only [decodeWith, classifyWith, lookup_of_none hT]

/-- Too few bytes do not decode. -/
theorem decodeWith_of_short {T : OpcodeTable} {b : Byte} {rest : List Byte} {op : Operation} {m : AddressingMode}
    (hT : T b = some (op, m)) (hl : (b :: rest).length < m.size) : decodeWith T (b :: rest) = none := by
  have hn : ¬ m.size ≤ (b :: rest).length := by omega
  simp only [decodeWith, classifyWith, lookup_of_some hT, boundsPass, hn, decide_false, Bool.false_eq_true, if_false]

/-- The size of a decoded instruction lies within its window. -/
theorem decodeWith_size {T : OpcodeTable} {w : List Byte} {i : InstructionOf T} (h : decodeWith T w = some i) :
    1 ≤ i.size ∧ i.size ≤ 3 ∧ i.size ≤ w.length := by
  obtain ⟨b, rest, op, m, _, _, hl, hi⟩ := decodeWith_some h
  have hs : i.size = m.size := congrArg Triple.size hi
  exact ⟨i.size_range.1, i.size_range.2, by omega⟩

end Sys2Proof
end

