-- ==== Sys2Proof/Laws/Encode.lean ====
section
/-! SUPPORT. The encoder against the opcode table: the constructor of a pair, and that
no two bytes of the default table hold one entry. -/

namespace Sys2Proof

/-- The pair an instruction stands for has that instruction as its constructor. -/
theorem ofPair_of_instr (i : Instr) : Instr.ofPair i.triple.operation i.triple.operand = some i := by
  cases i <;> rfl

/-- An instruction is determined by the triple it stands for. -/
theorem triple_injective {i j : Instr} (h : i.triple = j.triple) : i = j := by
  have hi := ofPair_of_instr i
  rw [h, ofPair_of_instr] at hi
  exact (Option.some.inj hi).symm

/-- The operand of a well-formed instruction is in range. -/
theorem operand_wf {i : Instr} (h : i.wf = true) : i.triple.operand.wf = true := by
  cases i <;> first
    | rfl
    | exact h

/-- The constructor of a slot's pair has that slot's byte as its opcode. -/
theorem opcode_of_entry (b : Byte) :
    (opcodeTable b).all (fun e => (Instr.ofPair e.1 (extract e.2 [])).any fun i => i.opcode == b) = true := by
  revert b
  decide

/-- No two bytes of the default table hold the same entry. -/
theorem opcodeTable_injective {b b' : Byte} {e : Operation × AddressingMode} (h : opcodeTable b = some e)
    (h' : opcodeTable b' = some e) : b = b' := by
  have hb := opcode_of_entry b
  have hb' := opcode_of_entry b'
  simp only [h, h', Option.all_some, Option.any_eq_true, beq_iff_eq] at hb hb'
  obtain ⟨i, hi, rfl⟩ := hb
  obtain ⟨j, hj, rfl⟩ := hb'
  rw [hi] at hj
  rw [Option.some.inj hj]

end Sys2Proof
end

