-- ==== Sys2Proof/Laws/State.lean ====
section
/-! SUPPORT. One lemma per field per update of State, each true by rfl, so that no later proof unfolds a record update. -/

namespace Sys2Proof.Machine

variable (i : Instruction) (st : Status) (s : State) (bs : List Byte)

@[simp] theorem emit_off : (emit i s).off = s.off + i.size := rfl
@[simp] theorem emit_status : (emit i s).status = s.status := rfl
@[simp] theorem emit_trace : (emit i s).trace = s.trace ++ [(s.off, i)] := rfl
@[simp] theorem emit_mem : (emit i s).mem = s.mem := rfl
@[simp] theorem emit_len : (emit i s).len = s.len := rfl
@[simp] theorem emit_offw : (emit i s).offw = s.offw := rfl

@[simp] theorem stop_off : (stop st s).off = s.off := rfl
@[simp] theorem stop_status : (stop st s).status = st := rfl
@[simp] theorem stop_trace : (stop st s).trace = s.trace := rfl
@[simp] theorem stop_mem : (stop st s).mem = s.mem := rfl
@[simp] theorem stop_len : (stop st s).len = s.len := rfl
@[simp] theorem stop_offw : (stop st s).offw = s.offw := rfl

@[simp] theorem hostReset_off : (hostReset s).off = 0 := rfl
@[simp] theorem hostReset_status : (hostReset s).status = .running := rfl
@[simp] theorem hostReset_trace : (hostReset s).trace = [] := rfl
@[simp] theorem hostReset_mem : (hostReset s).mem = s.mem := rfl
@[simp] theorem hostReset_len : (hostReset s).len = s.len := rfl
@[simp] theorem hostReset_offw : (hostReset s).offw = s.offw := rfl

@[simp] theorem hostLoad_off : (hostLoad bs s).off = 0 := rfl
@[simp] theorem hostLoad_status : (hostLoad bs s).status = .running := rfl
@[simp] theorem hostLoad_trace : (hostLoad bs s).trace = [] := rfl
@[simp] theorem hostLoad_mem : (hostLoad bs s).mem = writeBytes [] 0 bs := rfl
@[simp] theorem hostLoad_len : (hostLoad bs s).len = bs.length := rfl
@[simp] theorem hostLoad_offw : (hostLoad bs s).offw = s.offw := rfl

@[simp] theorem placeAtOff_off : (placeAtOff bs s).off = s.off := rfl
@[simp] theorem placeAtOff_status : (placeAtOff bs s).status = .running := rfl
@[simp] theorem placeAtOff_trace : (placeAtOff bs s).trace = s.trace := rfl
@[simp] theorem placeAtOff_mem : (placeAtOff bs s).mem = writeBytes s.mem s.off bs := rfl
@[simp] theorem placeAtOff_len : (placeAtOff bs s).len = max s.len (s.off + bs.length) := rfl
@[simp] theorem placeAtOff_offw : (placeAtOff bs s).offw = s.offw := rfl

/-- The shared operation of all meanings answers exactly one next state. -/
theorem passInstruction_next (b : Byte) (op : Operation) (operand : Operand)
    (entry : opcodeTable b = some (op, operand.mode)) :
    passInstruction b op operand s entry =
      .next (emit ⟨⟨op, operand, operand.mode.size⟩, rfl, ⟨b, entry⟩⟩ s) := rfl

end Sys2Proof.Machine
end

