-- ==== Sys2Proof/Laws/Mem.lean ====
section
/-! SUPPORT. The buffer's laws: read over write, the canonical form and that every write keeps it, and the bytes of a
suffix. -/

namespace Sys2Proof.Machine

/-- A read of the offset written gives the byte written, in a memory whose cells start at `lo`. -/
theorem readMem_writeMem_same (m : Mem) (a : Nat) (v : Byte) :
    ∀ lo, memWfFrom lo m = true → readMem (writeMem m a v) a = v := by
  induction m with
  | nil =>
    intro lo _
    by_cases hv : v = unlistedByte <;> simp [writeMem, readMem, hv]
  | cons c rest ih =>
    obtain ⟨k, b⟩ := c
    intro lo h
    simp only [memWfFrom, Bool.and_eq_true, decide_eq_true_eq] at h
    have absent : ∀ (n : Mem) (lo' : Nat), memWfFrom lo' n = true → a < lo' → readMem n a = unlistedByte := by
      intro n
      induction n with
      | nil => intro _ _ _; rfl
      | cons d more ihn =>
        intro lo' hn hlt
        simp only [memWfFrom, Bool.and_eq_true, decide_eq_true_eq] at hn
        have hne : ¬ d.1 = a := by omega
        simp only [readMem, hne, if_false]
        exact ihn _ hn.2 (by omega)
    unfold writeMem
    split
    · split
      · rename_i hlt hv
        have hne : ¬ k = a := by omega
        simp only [readMem, hne, if_false]
        rw [absent rest _ h.2 (by omega), hv]
      · simp [readMem]
    · split
      · rename_i hge heq
        split
        · rename_i hv
          rw [absent rest _ h.2 (by omega), hv]
        · simp [readMem]
      · rename_i hge hne
        have hne' : ¬ k = a := fun e => hne e.symm
        simp only [readMem, hne', if_false]
        exact ih _ h.2

/-- A write leaves every other offset as it was. -/
theorem readMem_writeMem_other (m : Mem) (a a' : Nat) (v : Byte) (hne : a' ≠ a) :
    readMem (writeMem m a v) a' = readMem m a' := by
  have hne' : ¬ a = a' := fun e => hne e.symm
  induction m with
  | nil => by_cases hv : v = unlistedByte <;> simp [writeMem, readMem, hv, hne']
  | cons c rest ih =>
    obtain ⟨k, b⟩ := c
    unfold writeMem
    split
    · split <;> simp [readMem, hne']
    · split
      · rename_i hge heq
        have hk : ¬ k = a' := fun e => hne (by omega)
        split <;> simp [readMem, hne', hk]
      · simp [readMem, ih]

/-- A write keeps the canonical form. -/
theorem memWfFrom_writeMem (m : Mem) (a : Nat) (v : Byte) :
    ∀ lo, lo ≤ a → memWfFrom lo m = true → memWfFrom lo (writeMem m a v) = true := by
  induction m with
  | nil =>
    intro lo hlo _
    by_cases hv : v = unlistedByte <;> simp [writeMem, memWfFrom, hv, hlo]
  | cons c rest ih =>
    obtain ⟨k, b⟩ := c
    intro lo hlo h
    have h0 := h
    simp only [memWfFrom, Bool.and_eq_true, decide_eq_true_eq] at h
    have weaken : ∀ lo', lo' ≤ k + 1 → memWfFrom lo' rest = true := by
      intro lo' hle
      cases rest with
      | nil => rfl
      | cons d more =>
        have h2 := h.2
        simp only [memWfFrom, Bool.and_eq_true, decide_eq_true_eq] at h2 ⊢
        exact ⟨⟨by omega, h2.1.2⟩, h2.2⟩
    unfold writeMem
    split
    · rename_i hlt
      split
      · exact h0
      · rename_i hv
        simp only [memWfFrom, Bool.and_eq_true, decide_eq_true_eq]
        exact ⟨⟨hlo, hv⟩, ⟨by omega, h.1.2⟩, h.2⟩
    · split
      · rename_i hge heq
        split
        · exact weaken lo (by omega)
        · rename_i hv
          simp only [memWfFrom, Bool.and_eq_true, decide_eq_true_eq]
          exact ⟨⟨hlo, hv⟩, weaken _ (by omega)⟩
      · simp only [memWfFrom, Bool.and_eq_true, decide_eq_true_eq]
        exact ⟨h.1, ih (k + 1) (by omega) h.2⟩

/-- A write keeps `memWf`. -/
theorem memWf_writeMem (m : Mem) (a : Nat) (v : Byte) (h : memWf m = true) : memWf (writeMem m a v) = true :=
  memWfFrom_writeMem m a v 0 (Nat.zero_le a) h

/-- Placing bytes keeps `memWf`. -/
theorem memWf_writeBytes (bs : List Byte) : ∀ (m : Mem) (a : Nat), memWf m = true → memWf (writeBytes m a bs) = true := by
  induction bs with
  | nil => intro m a h; exact h
  | cons b rest ih => intro m a h; exact ih _ _ (memWf_writeMem m a b h)

/-- A write inside the buffer keeps every cell inside it. -/
theorem memWithin_writeMem (m : Mem) (a : Nat) (v : Byte) (len : Nat) (ha : a < len)
    (h : memWithin m len = true) : memWithin (writeMem m a v) len = true := by
  induction m with
  | nil => by_cases hv : v = unlistedByte <;> simp [writeMem, memWithin, hv, ha]
  | cons c rest ih =>
    obtain ⟨k, b⟩ := c
    have h' : k < len ∧ memWithin rest len = true := by simpa [memWithin] using h
    unfold writeMem
    split
    · split
      · exact h
      · simpa [memWithin, ha] using h'
    · split
      · split
        · exact h'.2
        · simpa [memWithin, ha] using h'.2
      · simpa [memWithin] using And.intro h'.1 (ih h'.2)

/-- The empty memory, and so the memory after reset, is in canonical form. -/
theorem memWf_reset : memWf State.reset.mem = true := rfl

@[simp] theorem bytesFrom_length (m : Mem) (n : Nat) : ∀ a, (bytesFrom m a n).length = n := by
  induction n with
  | zero => intro a; rfl
  | succ n ih => intro a; simp [bytesFrom, ih]

/-- Dropping bytes from a suffix starts it later. -/
theorem bytesFrom_drop (m : Mem) (k : Nat) : ∀ a n, (bytesFrom m a n).drop k = bytesFrom m (a + k) (n - k) := by
  induction k with
  | zero => intro a n; simp
  | succ k ih =>
    intro a n
    cases n with
    | zero => simp [bytesFrom]
    | succ n =>
      simp only [bytesFrom, List.drop_succ_cons, ih]
      congr 1 <;> omega

/-- The byte at an index of a suffix is the buffer's byte at that offset. -/
theorem bytesFrom_getElem (m : Mem) (n : Nat) : ∀ a k, (h : k < (bytesFrom m a n).length) →
    (bytesFrom m a n)[k] = readMem m (a + k) := by
  induction n with
  | zero => intro a k h; simp [bytesFrom] at h
  | succ n ih =>
    intro a k h
    cases k with
    | zero => simp [bytesFrom]
    | succ k =>
      simp only [bytesFrom, List.getElem_cons_succ]
      rw [ih]
      congr 1
      omega

@[simp] theorem suffixAt_length (s : State) (a : Nat) : (suffixAt s a).length = s.len - a := by simp [suffixAt]

@[simp] theorem window_length (s : State) : (window s).length = s.len - s.off := by simp [window]

/-- The window after a step of size `k` is this window without its first `k` bytes. -/
theorem window_drop (s t : State) (k : Nat) (hm : t.mem = s.mem) (hl : t.len = s.len) (ho : t.off = s.off + k) :
    window t = (window s).drop k := by
  simp only [window, suffixAt, bytesFrom_drop, hm, hl, ho]
  congr 1
  omega

end Sys2Proof.Machine
end

