-- ==== Sys2Proof/Laws/PerInstr.lean ====
section
/-! SUPPORT. Statements about every instruction as syntax: one lemma per constructor of Instr. -/

namespace Sys2Proof.Laws.EncodingRow

/-- The opcode byte the encoder gives an instruction has, in the opcode table, the instruction's Operation and the mode of
its operand (R155), its encoding is as long as its size says (R80), and its triple is well formed when it is (R26). -/
def Statement (i : Instr) : Prop :=
  opcodeTable i.opcode = some (i.triple.operation, i.triple.operand.mode) ∧
    (encode i).length = i.triple.size ∧ (i.wf = true → i.triple.wf = true)

/-- A branch's triple is well formed when its offset is in range. -/
theorem branchWf (k : Int) (op : Operation) (h : (Operand.relative k).wf = true) :
    Triple.wf ⟨op, .relative k, 2⟩ = true := by
  simp only [Triple.wf, h]
  rfl

theorem ldaImm (v : Byte) : Statement (.ldaImm v) := ⟨(rfl : opcodeTable 0xA9#8 = _), rfl, fun _ => rfl⟩
theorem ldaZp (v : Byte) : Statement (.ldaZp v) := ⟨(rfl : opcodeTable 0xA5#8 = _), rfl, fun _ => rfl⟩
theorem ldaZpx (v : Byte) : Statement (.ldaZpx v) := ⟨(rfl : opcodeTable 0xB5#8 = _), rfl, fun _ => rfl⟩
theorem ldaAbs (a : Word) : Statement (.ldaAbs a) := ⟨(rfl : opcodeTable 0xAD#8 = _), rfl, fun _ => rfl⟩
theorem ldaAbx (a : Word) : Statement (.ldaAbx a) := ⟨(rfl : opcodeTable 0xBD#8 = _), rfl, fun _ => rfl⟩
theorem ldaAby (a : Word) : Statement (.ldaAby a) := ⟨(rfl : opcodeTable 0xB9#8 = _), rfl, fun _ => rfl⟩
theorem ldaIzx (v : Byte) : Statement (.ldaIzx v) := ⟨(rfl : opcodeTable 0xA1#8 = _), rfl, fun _ => rfl⟩
theorem ldaIzy (v : Byte) : Statement (.ldaIzy v) := ⟨(rfl : opcodeTable 0xB1#8 = _), rfl, fun _ => rfl⟩
theorem ldxImm (v : Byte) : Statement (.ldxImm v) := ⟨(rfl : opcodeTable 0xA2#8 = _), rfl, fun _ => rfl⟩
theorem ldxZp (v : Byte) : Statement (.ldxZp v) := ⟨(rfl : opcodeTable 0xA6#8 = _), rfl, fun _ => rfl⟩
theorem ldxZpy (v : Byte) : Statement (.ldxZpy v) := ⟨(rfl : opcodeTable 0xB6#8 = _), rfl, fun _ => rfl⟩
theorem ldxAbs (a : Word) : Statement (.ldxAbs a) := ⟨(rfl : opcodeTable 0xAE#8 = _), rfl, fun _ => rfl⟩
theorem ldxAby (a : Word) : Statement (.ldxAby a) := ⟨(rfl : opcodeTable 0xBE#8 = _), rfl, fun _ => rfl⟩
theorem ldyImm (v : Byte) : Statement (.ldyImm v) := ⟨(rfl : opcodeTable 0xA0#8 = _), rfl, fun _ => rfl⟩
theorem ldyZp (v : Byte) : Statement (.ldyZp v) := ⟨(rfl : opcodeTable 0xA4#8 = _), rfl, fun _ => rfl⟩
theorem ldyZpx (v : Byte) : Statement (.ldyZpx v) := ⟨(rfl : opcodeTable 0xB4#8 = _), rfl, fun _ => rfl⟩
theorem ldyAbs (a : Word) : Statement (.ldyAbs a) := ⟨(rfl : opcodeTable 0xAC#8 = _), rfl, fun _ => rfl⟩
theorem ldyAbx (a : Word) : Statement (.ldyAbx a) := ⟨(rfl : opcodeTable 0xBC#8 = _), rfl, fun _ => rfl⟩
theorem staZp (v : Byte) : Statement (.staZp v) := ⟨(rfl : opcodeTable 0x85#8 = _), rfl, fun _ => rfl⟩
theorem staZpx (v : Byte) : Statement (.staZpx v) := ⟨(rfl : opcodeTable 0x95#8 = _), rfl, fun _ => rfl⟩
theorem staAbs (a : Word) : Statement (.staAbs a) := ⟨(rfl : opcodeTable 0x8D#8 = _), rfl, fun _ => rfl⟩
theorem staAbx (a : Word) : Statement (.staAbx a) := ⟨(rfl : opcodeTable 0x9D#8 = _), rfl, fun _ => rfl⟩
theorem staAby (a : Word) : Statement (.staAby a) := ⟨(rfl : opcodeTable 0x99#8 = _), rfl, fun _ => rfl⟩
theorem staIzx (v : Byte) : Statement (.staIzx v) := ⟨(rfl : opcodeTable 0x81#8 = _), rfl, fun _ => rfl⟩
theorem staIzy (v : Byte) : Statement (.staIzy v) := ⟨(rfl : opcodeTable 0x91#8 = _), rfl, fun _ => rfl⟩
theorem stxZp (v : Byte) : Statement (.stxZp v) := ⟨(rfl : opcodeTable 0x86#8 = _), rfl, fun _ => rfl⟩
theorem stxZpy (v : Byte) : Statement (.stxZpy v) := ⟨(rfl : opcodeTable 0x96#8 = _), rfl, fun _ => rfl⟩
theorem stxAbs (a : Word) : Statement (.stxAbs a) := ⟨(rfl : opcodeTable 0x8E#8 = _), rfl, fun _ => rfl⟩
theorem styZp (v : Byte) : Statement (.styZp v) := ⟨(rfl : opcodeTable 0x84#8 = _), rfl, fun _ => rfl⟩
theorem styZpx (v : Byte) : Statement (.styZpx v) := ⟨(rfl : opcodeTable 0x94#8 = _), rfl, fun _ => rfl⟩
theorem styAbs (a : Word) : Statement (.styAbs a) := ⟨(rfl : opcodeTable 0x8C#8 = _), rfl, fun _ => rfl⟩
theorem tax : Statement (.tax) := ⟨(rfl : opcodeTable 0xAA#8 = _), rfl, fun _ => rfl⟩
theorem tay : Statement (.tay) := ⟨(rfl : opcodeTable 0xA8#8 = _), rfl, fun _ => rfl⟩
theorem tsx : Statement (.tsx) := ⟨(rfl : opcodeTable 0xBA#8 = _), rfl, fun _ => rfl⟩
theorem txa : Statement (.txa) := ⟨(rfl : opcodeTable 0x8A#8 = _), rfl, fun _ => rfl⟩
theorem txs : Statement (.txs) := ⟨(rfl : opcodeTable 0x9A#8 = _), rfl, fun _ => rfl⟩
theorem tya : Statement (.tya) := ⟨(rfl : opcodeTable 0x98#8 = _), rfl, fun _ => rfl⟩
theorem pha : Statement (.pha) := ⟨(rfl : opcodeTable 0x48#8 = _), rfl, fun _ => rfl⟩
theorem php : Statement (.php) := ⟨(rfl : opcodeTable 0x08#8 = _), rfl, fun _ => rfl⟩
theorem pla : Statement (.pla) := ⟨(rfl : opcodeTable 0x68#8 = _), rfl, fun _ => rfl⟩
theorem plp : Statement (.plp) := ⟨(rfl : opcodeTable 0x28#8 = _), rfl, fun _ => rfl⟩
theorem adcImm (v : Byte) : Statement (.adcImm v) := ⟨(rfl : opcodeTable 0x69#8 = _), rfl, fun _ => rfl⟩
theorem adcZp (v : Byte) : Statement (.adcZp v) := ⟨(rfl : opcodeTable 0x65#8 = _), rfl, fun _ => rfl⟩
theorem adcZpx (v : Byte) : Statement (.adcZpx v) := ⟨(rfl : opcodeTable 0x75#8 = _), rfl, fun _ => rfl⟩
theorem adcAbs (a : Word) : Statement (.adcAbs a) := ⟨(rfl : opcodeTable 0x6D#8 = _), rfl, fun _ => rfl⟩
theorem adcAbx (a : Word) : Statement (.adcAbx a) := ⟨(rfl : opcodeTable 0x7D#8 = _), rfl, fun _ => rfl⟩
theorem adcAby (a : Word) : Statement (.adcAby a) := ⟨(rfl : opcodeTable 0x79#8 = _), rfl, fun _ => rfl⟩
theorem adcIzx (v : Byte) : Statement (.adcIzx v) := ⟨(rfl : opcodeTable 0x61#8 = _), rfl, fun _ => rfl⟩
theorem adcIzy (v : Byte) : Statement (.adcIzy v) := ⟨(rfl : opcodeTable 0x71#8 = _), rfl, fun _ => rfl⟩
theorem sbcImm (v : Byte) : Statement (.sbcImm v) := ⟨(rfl : opcodeTable 0xE9#8 = _), rfl, fun _ => rfl⟩
theorem sbcZp (v : Byte) : Statement (.sbcZp v) := ⟨(rfl : opcodeTable 0xE5#8 = _), rfl, fun _ => rfl⟩
theorem sbcZpx (v : Byte) : Statement (.sbcZpx v) := ⟨(rfl : opcodeTable 0xF5#8 = _), rfl, fun _ => rfl⟩
theorem sbcAbs (a : Word) : Statement (.sbcAbs a) := ⟨(rfl : opcodeTable 0xED#8 = _), rfl, fun _ => rfl⟩
theorem sbcAbx (a : Word) : Statement (.sbcAbx a) := ⟨(rfl : opcodeTable 0xFD#8 = _), rfl, fun _ => rfl⟩
theorem sbcAby (a : Word) : Statement (.sbcAby a) := ⟨(rfl : opcodeTable 0xF9#8 = _), rfl, fun _ => rfl⟩
theorem sbcIzx (v : Byte) : Statement (.sbcIzx v) := ⟨(rfl : opcodeTable 0xE1#8 = _), rfl, fun _ => rfl⟩
theorem sbcIzy (v : Byte) : Statement (.sbcIzy v) := ⟨(rfl : opcodeTable 0xF1#8 = _), rfl, fun _ => rfl⟩
theorem andImm (v : Byte) : Statement (.andImm v) := ⟨(rfl : opcodeTable 0x29#8 = _), rfl, fun _ => rfl⟩
theorem andZp (v : Byte) : Statement (.andZp v) := ⟨(rfl : opcodeTable 0x25#8 = _), rfl, fun _ => rfl⟩
theorem andZpx (v : Byte) : Statement (.andZpx v) := ⟨(rfl : opcodeTable 0x35#8 = _), rfl, fun _ => rfl⟩
theorem andAbs (a : Word) : Statement (.andAbs a) := ⟨(rfl : opcodeTable 0x2D#8 = _), rfl, fun _ => rfl⟩
theorem andAbx (a : Word) : Statement (.andAbx a) := ⟨(rfl : opcodeTable 0x3D#8 = _), rfl, fun _ => rfl⟩
theorem andAby (a : Word) : Statement (.andAby a) := ⟨(rfl : opcodeTable 0x39#8 = _), rfl, fun _ => rfl⟩
theorem andIzx (v : Byte) : Statement (.andIzx v) := ⟨(rfl : opcodeTable 0x21#8 = _), rfl, fun _ => rfl⟩
theorem andIzy (v : Byte) : Statement (.andIzy v) := ⟨(rfl : opcodeTable 0x31#8 = _), rfl, fun _ => rfl⟩
theorem oraImm (v : Byte) : Statement (.oraImm v) := ⟨(rfl : opcodeTable 0x09#8 = _), rfl, fun _ => rfl⟩
theorem oraZp (v : Byte) : Statement (.oraZp v) := ⟨(rfl : opcodeTable 0x05#8 = _), rfl, fun _ => rfl⟩
theorem oraZpx (v : Byte) : Statement (.oraZpx v) := ⟨(rfl : opcodeTable 0x15#8 = _), rfl, fun _ => rfl⟩
theorem oraAbs (a : Word) : Statement (.oraAbs a) := ⟨(rfl : opcodeTable 0x0D#8 = _), rfl, fun _ => rfl⟩
theorem oraAbx (a : Word) : Statement (.oraAbx a) := ⟨(rfl : opcodeTable 0x1D#8 = _), rfl, fun _ => rfl⟩
theorem oraAby (a : Word) : Statement (.oraAby a) := ⟨(rfl : opcodeTable 0x19#8 = _), rfl, fun _ => rfl⟩
theorem oraIzx (v : Byte) : Statement (.oraIzx v) := ⟨(rfl : opcodeTable 0x01#8 = _), rfl, fun _ => rfl⟩
theorem oraIzy (v : Byte) : Statement (.oraIzy v) := ⟨(rfl : opcodeTable 0x11#8 = _), rfl, fun _ => rfl⟩
theorem eorImm (v : Byte) : Statement (.eorImm v) := ⟨(rfl : opcodeTable 0x49#8 = _), rfl, fun _ => rfl⟩
theorem eorZp (v : Byte) : Statement (.eorZp v) := ⟨(rfl : opcodeTable 0x45#8 = _), rfl, fun _ => rfl⟩
theorem eorZpx (v : Byte) : Statement (.eorZpx v) := ⟨(rfl : opcodeTable 0x55#8 = _), rfl, fun _ => rfl⟩
theorem eorAbs (a : Word) : Statement (.eorAbs a) := ⟨(rfl : opcodeTable 0x4D#8 = _), rfl, fun _ => rfl⟩
theorem eorAbx (a : Word) : Statement (.eorAbx a) := ⟨(rfl : opcodeTable 0x5D#8 = _), rfl, fun _ => rfl⟩
theorem eorAby (a : Word) : Statement (.eorAby a) := ⟨(rfl : opcodeTable 0x59#8 = _), rfl, fun _ => rfl⟩
theorem eorIzx (v : Byte) : Statement (.eorIzx v) := ⟨(rfl : opcodeTable 0x41#8 = _), rfl, fun _ => rfl⟩
theorem eorIzy (v : Byte) : Statement (.eorIzy v) := ⟨(rfl : opcodeTable 0x51#8 = _), rfl, fun _ => rfl⟩
theorem cmpImm (v : Byte) : Statement (.cmpImm v) := ⟨(rfl : opcodeTable 0xC9#8 = _), rfl, fun _ => rfl⟩
theorem cmpZp (v : Byte) : Statement (.cmpZp v) := ⟨(rfl : opcodeTable 0xC5#8 = _), rfl, fun _ => rfl⟩
theorem cmpZpx (v : Byte) : Statement (.cmpZpx v) := ⟨(rfl : opcodeTable 0xD5#8 = _), rfl, fun _ => rfl⟩
theorem cmpAbs (a : Word) : Statement (.cmpAbs a) := ⟨(rfl : opcodeTable 0xCD#8 = _), rfl, fun _ => rfl⟩
theorem cmpAbx (a : Word) : Statement (.cmpAbx a) := ⟨(rfl : opcodeTable 0xDD#8 = _), rfl, fun _ => rfl⟩
theorem cmpAby (a : Word) : Statement (.cmpAby a) := ⟨(rfl : opcodeTable 0xD9#8 = _), rfl, fun _ => rfl⟩
theorem cmpIzx (v : Byte) : Statement (.cmpIzx v) := ⟨(rfl : opcodeTable 0xC1#8 = _), rfl, fun _ => rfl⟩
theorem cmpIzy (v : Byte) : Statement (.cmpIzy v) := ⟨(rfl : opcodeTable 0xD1#8 = _), rfl, fun _ => rfl⟩
theorem cpxImm (v : Byte) : Statement (.cpxImm v) := ⟨(rfl : opcodeTable 0xE0#8 = _), rfl, fun _ => rfl⟩
theorem cpxZp (v : Byte) : Statement (.cpxZp v) := ⟨(rfl : opcodeTable 0xE4#8 = _), rfl, fun _ => rfl⟩
theorem cpxAbs (a : Word) : Statement (.cpxAbs a) := ⟨(rfl : opcodeTable 0xEC#8 = _), rfl, fun _ => rfl⟩
theorem cpyImm (v : Byte) : Statement (.cpyImm v) := ⟨(rfl : opcodeTable 0xC0#8 = _), rfl, fun _ => rfl⟩
theorem cpyZp (v : Byte) : Statement (.cpyZp v) := ⟨(rfl : opcodeTable 0xC4#8 = _), rfl, fun _ => rfl⟩
theorem cpyAbs (a : Word) : Statement (.cpyAbs a) := ⟨(rfl : opcodeTable 0xCC#8 = _), rfl, fun _ => rfl⟩
theorem bitZp (v : Byte) : Statement (.bitZp v) := ⟨(rfl : opcodeTable 0x24#8 = _), rfl, fun _ => rfl⟩
theorem bitAbs (a : Word) : Statement (.bitAbs a) := ⟨(rfl : opcodeTable 0x2C#8 = _), rfl, fun _ => rfl⟩
theorem aslZp (v : Byte) : Statement (.aslZp v) := ⟨(rfl : opcodeTable 0x06#8 = _), rfl, fun _ => rfl⟩
theorem aslZpx (v : Byte) : Statement (.aslZpx v) := ⟨(rfl : opcodeTable 0x16#8 = _), rfl, fun _ => rfl⟩
theorem aslAbs (a : Word) : Statement (.aslAbs a) := ⟨(rfl : opcodeTable 0x0E#8 = _), rfl, fun _ => rfl⟩
theorem aslAbx (a : Word) : Statement (.aslAbx a) := ⟨(rfl : opcodeTable 0x1E#8 = _), rfl, fun _ => rfl⟩
theorem aslAcc : Statement (.aslAcc) := ⟨(rfl : opcodeTable 0x0A#8 = _), rfl, fun _ => rfl⟩
theorem lsrZp (v : Byte) : Statement (.lsrZp v) := ⟨(rfl : opcodeTable 0x46#8 = _), rfl, fun _ => rfl⟩
theorem lsrZpx (v : Byte) : Statement (.lsrZpx v) := ⟨(rfl : opcodeTable 0x56#8 = _), rfl, fun _ => rfl⟩
theorem lsrAbs (a : Word) : Statement (.lsrAbs a) := ⟨(rfl : opcodeTable 0x4E#8 = _), rfl, fun _ => rfl⟩
theorem lsrAbx (a : Word) : Statement (.lsrAbx a) := ⟨(rfl : opcodeTable 0x5E#8 = _), rfl, fun _ => rfl⟩
theorem lsrAcc : Statement (.lsrAcc) := ⟨(rfl : opcodeTable 0x4A#8 = _), rfl, fun _ => rfl⟩
theorem rolZp (v : Byte) : Statement (.rolZp v) := ⟨(rfl : opcodeTable 0x26#8 = _), rfl, fun _ => rfl⟩
theorem rolZpx (v : Byte) : Statement (.rolZpx v) := ⟨(rfl : opcodeTable 0x36#8 = _), rfl, fun _ => rfl⟩
theorem rolAbs (a : Word) : Statement (.rolAbs a) := ⟨(rfl : opcodeTable 0x2E#8 = _), rfl, fun _ => rfl⟩
theorem rolAbx (a : Word) : Statement (.rolAbx a) := ⟨(rfl : opcodeTable 0x3E#8 = _), rfl, fun _ => rfl⟩
theorem rolAcc : Statement (.rolAcc) := ⟨(rfl : opcodeTable 0x2A#8 = _), rfl, fun _ => rfl⟩
theorem rorZp (v : Byte) : Statement (.rorZp v) := ⟨(rfl : opcodeTable 0x66#8 = _), rfl, fun _ => rfl⟩
theorem rorZpx (v : Byte) : Statement (.rorZpx v) := ⟨(rfl : opcodeTable 0x76#8 = _), rfl, fun _ => rfl⟩
theorem rorAbs (a : Word) : Statement (.rorAbs a) := ⟨(rfl : opcodeTable 0x6E#8 = _), rfl, fun _ => rfl⟩
theorem rorAbx (a : Word) : Statement (.rorAbx a) := ⟨(rfl : opcodeTable 0x7E#8 = _), rfl, fun _ => rfl⟩
theorem rorAcc : Statement (.rorAcc) := ⟨(rfl : opcodeTable 0x6A#8 = _), rfl, fun _ => rfl⟩
theorem incZp (v : Byte) : Statement (.incZp v) := ⟨(rfl : opcodeTable 0xE6#8 = _), rfl, fun _ => rfl⟩
theorem incZpx (v : Byte) : Statement (.incZpx v) := ⟨(rfl : opcodeTable 0xF6#8 = _), rfl, fun _ => rfl⟩
theorem incAbs (a : Word) : Statement (.incAbs a) := ⟨(rfl : opcodeTable 0xEE#8 = _), rfl, fun _ => rfl⟩
theorem incAbx (a : Word) : Statement (.incAbx a) := ⟨(rfl : opcodeTable 0xFE#8 = _), rfl, fun _ => rfl⟩
theorem decZp (v : Byte) : Statement (.decZp v) := ⟨(rfl : opcodeTable 0xC6#8 = _), rfl, fun _ => rfl⟩
theorem decZpx (v : Byte) : Statement (.decZpx v) := ⟨(rfl : opcodeTable 0xD6#8 = _), rfl, fun _ => rfl⟩
theorem decAbs (a : Word) : Statement (.decAbs a) := ⟨(rfl : opcodeTable 0xCE#8 = _), rfl, fun _ => rfl⟩
theorem decAbx (a : Word) : Statement (.decAbx a) := ⟨(rfl : opcodeTable 0xDE#8 = _), rfl, fun _ => rfl⟩
theorem inx : Statement (.inx) := ⟨(rfl : opcodeTable 0xE8#8 = _), rfl, fun _ => rfl⟩
theorem iny : Statement (.iny) := ⟨(rfl : opcodeTable 0xC8#8 = _), rfl, fun _ => rfl⟩
theorem dex : Statement (.dex) := ⟨(rfl : opcodeTable 0xCA#8 = _), rfl, fun _ => rfl⟩
theorem dey : Statement (.dey) := ⟨(rfl : opcodeTable 0x88#8 = _), rfl, fun _ => rfl⟩
theorem bccRel (k : Int) : Statement (.bccRel k) := ⟨(rfl : opcodeTable 0x90#8 = _), rfl, branchWf k _⟩
theorem bcsRel (k : Int) : Statement (.bcsRel k) := ⟨(rfl : opcodeTable 0xB0#8 = _), rfl, branchWf k _⟩
theorem beqRel (k : Int) : Statement (.beqRel k) := ⟨(rfl : opcodeTable 0xF0#8 = _), rfl, branchWf k _⟩
theorem bmiRel (k : Int) : Statement (.bmiRel k) := ⟨(rfl : opcodeTable 0x30#8 = _), rfl, branchWf k _⟩
theorem bneRel (k : Int) : Statement (.bneRel k) := ⟨(rfl : opcodeTable 0xD0#8 = _), rfl, branchWf k _⟩
theorem bplRel (k : Int) : Statement (.bplRel k) := ⟨(rfl : opcodeTable 0x10#8 = _), rfl, branchWf k _⟩
theorem bvcRel (k : Int) : Statement (.bvcRel k) := ⟨(rfl : opcodeTable 0x50#8 = _), rfl, branchWf k _⟩
theorem bvsRel (k : Int) : Statement (.bvsRel k) := ⟨(rfl : opcodeTable 0x70#8 = _), rfl, branchWf k _⟩
theorem jmpAbs (a : Word) : Statement (.jmpAbs a) := ⟨(rfl : opcodeTable 0x4C#8 = _), rfl, fun _ => rfl⟩
theorem jmpInd (a : Word) : Statement (.jmpInd a) := ⟨(rfl : opcodeTable 0x6C#8 = _), rfl, fun _ => rfl⟩
theorem jsrAbs (a : Word) : Statement (.jsrAbs a) := ⟨(rfl : opcodeTable 0x20#8 = _), rfl, fun _ => rfl⟩
theorem rts : Statement (.rts) := ⟨(rfl : opcodeTable 0x60#8 = _), rfl, fun _ => rfl⟩
theorem rti : Statement (.rti) := ⟨(rfl : opcodeTable 0x40#8 = _), rfl, fun _ => rfl⟩
theorem brk : Statement (.brk) := ⟨(rfl : opcodeTable 0x00#8 = _), rfl, fun _ => rfl⟩
theorem nop : Statement (.nop) := ⟨(rfl : opcodeTable 0xEA#8 = _), rfl, fun _ => rfl⟩
theorem clc : Statement (.clc) := ⟨(rfl : opcodeTable 0x18#8 = _), rfl, fun _ => rfl⟩
theorem cld : Statement (.cld) := ⟨(rfl : opcodeTable 0xD8#8 = _), rfl, fun _ => rfl⟩
theorem cli : Statement (.cli) := ⟨(rfl : opcodeTable 0x58#8 = _), rfl, fun _ => rfl⟩
theorem clv : Statement (.clv) := ⟨(rfl : opcodeTable 0xB8#8 = _), rfl, fun _ => rfl⟩
theorem sec : Statement (.sec) := ⟨(rfl : opcodeTable 0x38#8 = _), rfl, fun _ => rfl⟩
theorem sed : Statement (.sed) := ⟨(rfl : opcodeTable 0xF8#8 = _), rfl, fun _ => rfl⟩
theorem sei : Statement (.sei) := ⟨(rfl : opcodeTable 0x78#8 = _), rfl, fun _ => rfl⟩

end Sys2Proof.Laws.EncodingRow
end

