-- ==== Sys2Proof/Laws/Step.lean ====
section
/-! SUPPORT. The decoder to `Instr` against the decode operation, what `exec` answers, and the one inversion of a step
from which invariants follow. -/

namespace Sys2Proof

theorem ofAbsolute_triple (op : Operation) (a : Word) (i : Instr) (h : Instr.ofAbsolute op a = some i) :
    i.triple = ⟨op, .absolute a, AddressingMode.absolute.size⟩ := by cases op <;> cases h <;> rfl

theorem ofAbsoluteX_triple (op : Operation) (a : Word) (i : Instr) (h : Instr.ofAbsoluteX op a = some i) :
    i.triple = ⟨op, .absoluteX a, AddressingMode.absoluteX.size⟩ := by cases op <;> cases h <;> rfl

theorem ofAbsoluteY_triple (op : Operation) (a : Word) (i : Instr) (h : Instr.ofAbsoluteY op a = some i) :
    i.triple = ⟨op, .absoluteY a, AddressingMode.absoluteY.size⟩ := by cases op <;> cases h <;> rfl

theorem ofAccumulator_triple (op : Operation) (i : Instr) (h : Instr.ofAccumulator op = some i) :
    i.triple = ⟨op, .accumulator, AddressingMode.accumulator.size⟩ := by cases op <;> cases h <;> rfl

theorem ofImmediate_triple (op : Operation) (v : Byte) (i : Instr) (h : Instr.ofImmediate op v = some i) :
    i.triple = ⟨op, .immediate v, AddressingMode.immediate.size⟩ := by cases op <;> cases h <;> rfl

theorem ofImplied_triple (op : Operation) (i : Instr) (h : Instr.ofImplied op = some i) :
    i.triple = ⟨op, .implied, AddressingMode.implied.size⟩ := by cases op <;> cases h <;> rfl

theorem ofIndexedIndirect_triple (op : Operation) (v : Byte) (i : Instr) (h : Instr.ofIndexedIndirect op v = some i) :
    i.triple = ⟨op, .indexedIndirect v, AddressingMode.indexedIndirect.size⟩ := by cases op <;> cases h <;> rfl

theorem ofIndirect_triple (op : Operation) (a : Word) (i : Instr) (h : Instr.ofIndirect op a = some i) :
    i.triple = ⟨op, .indirect a, AddressingMode.indirect.size⟩ := by cases op <;> cases h <;> rfl

theorem ofIndirectIndexed_triple (op : Operation) (v : Byte) (i : Instr) (h : Instr.ofIndirectIndexed op v = some i) :
    i.triple = ⟨op, .indirectIndexed v, AddressingMode.indirectIndexed.size⟩ := by cases op <;> cases h <;> rfl

theorem ofRelative_triple (op : Operation) (k : Int) (i : Instr) (h : Instr.ofRelative op k = some i) :
    i.triple = ⟨op, .relative k, AddressingMode.relative.size⟩ := by cases op <;> cases h <;> rfl

theorem ofZeroPage_triple (op : Operation) (v : Byte) (i : Instr) (h : Instr.ofZeroPage op v = some i) :
    i.triple = ⟨op, .zeroPage v, AddressingMode.zeroPage.size⟩ := by cases op <;> cases h <;> rfl

theorem ofZeroPageX_triple (op : Operation) (v : Byte) (i : Instr) (h : Instr.ofZeroPageX op v = some i) :
    i.triple = ⟨op, .zeroPageX v, AddressingMode.zeroPageX.size⟩ := by cases op <;> cases h <;> rfl

theorem ofZeroPageY_triple (op : Operation) (v : Byte) (i : Instr) (h : Instr.ofZeroPageY op v = some i) :
    i.triple = ⟨op, .zeroPageY v, AddressingMode.zeroPageY.size⟩ := by cases op <;> cases h <;> rfl

/-- The constructor found for a pair stands for that pair, with its mode's size. -/
theorem ofPair_triple (op : Operation) (operand : Operand) (i : Instr)
    (h : Instr.ofPair op operand = some i) : i.triple = ⟨op, operand, operand.mode.size⟩ := by
  cases operand with
  | absolute a => exact ofAbsolute_triple op a i h
  | absoluteX a => exact ofAbsoluteX_triple op a i h
  | absoluteY a => exact ofAbsoluteY_triple op a i h
  | accumulator => exact ofAccumulator_triple op i h
  | immediate v => exact ofImmediate_triple op v i h
  | implied => exact ofImplied_triple op i h
  | indexedIndirect v => exact ofIndexedIndirect_triple op v i h
  | indirect a => exact ofIndirect_triple op a i h
  | indirectIndexed v => exact ofIndirectIndexed_triple op v i h
  | relative k => exact ofRelative_triple op k i h
  | zeroPage v => exact ofZeroPage_triple op v i h
  | zeroPageX v => exact ofZeroPageX_triple op v i h
  | zeroPageY v => exact ofZeroPageY_triple op v i h

theorem ofAbsolute_isSome (op : Operation) (x y : Word) :
    (Instr.ofAbsolute op x).isSome = (Instr.ofAbsolute op y).isSome := by cases op <;> rfl

theorem ofAbsoluteX_isSome (op : Operation) (x y : Word) :
    (Instr.ofAbsoluteX op x).isSome = (Instr.ofAbsoluteX op y).isSome := by cases op <;> rfl

theorem ofAbsoluteY_isSome (op : Operation) (x y : Word) :
    (Instr.ofAbsoluteY op x).isSome = (Instr.ofAbsoluteY op y).isSome := by cases op <;> rfl

theorem ofImmediate_isSome (op : Operation) (x y : Byte) :
    (Instr.ofImmediate op x).isSome = (Instr.ofImmediate op y).isSome := by cases op <;> rfl

theorem ofIndexedIndirect_isSome (op : Operation) (x y : Byte) :
    (Instr.ofIndexedIndirect op x).isSome = (Instr.ofIndexedIndirect op y).isSome := by cases op <;> rfl

theorem ofIndirect_isSome (op : Operation) (x y : Word) :
    (Instr.ofIndirect op x).isSome = (Instr.ofIndirect op y).isSome := by cases op <;> rfl

theorem ofIndirectIndexed_isSome (op : Operation) (x y : Byte) :
    (Instr.ofIndirectIndexed op x).isSome = (Instr.ofIndirectIndexed op y).isSome := by cases op <;> rfl

theorem ofRelative_isSome (op : Operation) (x y : Int) :
    (Instr.ofRelative op x).isSome = (Instr.ofRelative op y).isSome := by cases op <;> rfl

theorem ofZeroPage_isSome (op : Operation) (x y : Byte) :
    (Instr.ofZeroPage op x).isSome = (Instr.ofZeroPage op y).isSome := by cases op <;> rfl

theorem ofZeroPageX_isSome (op : Operation) (x y : Byte) :
    (Instr.ofZeroPageX op x).isSome = (Instr.ofZeroPageX op y).isSome := by cases op <;> rfl

theorem ofZeroPageY_isSome (op : Operation) (x y : Byte) :
    (Instr.ofZeroPageY op x).isSome = (Instr.ofZeroPageY op y).isSome := by cases op <;> rfl

/-- Whether a pair has a constructor depends on its mode only. -/
theorem ofPair_isSome (op : Operation) (m : AddressingMode) (w : List Byte) :
    (Instr.ofPair op (extract m w)).isSome = (Instr.ofPair op (extract m [])).isSome := by
  cases m with
  | absolute => exact ofAbsolute_isSome op _ _
  | absoluteX => exact ofAbsoluteX_isSome op _ _
  | absoluteY => exact ofAbsoluteY_isSome op _ _
  | accumulator => rfl
  | immediate => exact ofImmediate_isSome op _ _
  | implied => rfl
  | indexedIndirect => exact ofIndexedIndirect_isSome op _ _
  | indirect => exact ofIndirect_isSome op _ _
  | indirectIndexed => exact ofIndirectIndexed_isSome op _ _
  | relative => exact ofRelative_isSome op _ _
  | zeroPage => exact ofZeroPage_isSome op _ _
  | zeroPageX => exact ofZeroPageX_isSome op _ _
  | zeroPageY => exact ofZeroPageY_isSome op _ _

/-- Every entry of the default table has a constructor. -/
theorem opcodeTable_ofPair (b : Byte) :
    (opcodeTable b).all (fun e => (Instr.ofPair e.1 (extract e.2 [])).isSome) = true := by
  revert b
  decide

/-- The decoder to `Instr` answers an instruction that stands for the decode's. -/
theorem decodeInstr_ok {w : List Byte} {i : Instr} (h : decodeInstr w = .ok i) : decode w = some i.instruction := by
  unfold decodeInstr at h
  unfold decode decodeWith
  cases hc : classifyWith opcodeTable w with
  | error e => simp [hc] at h
  | ok x =>
    simp only [hc] at h
    cases hp : Instr.ofPair x.operation x.operand with
    | none => simp [hp] at h
    | some j =>
      simp only [hp, Except.ok.injEq] at h
      subst h
      refine congrArg some (InstructionOf.eq_of_triple ?_)
      rw [show j.instruction.toTriple = j.triple from rfl, ofPair_triple _ _ _ hp, ← x.sizeIsModes]

/-- A decode is one of the decoder to `Instr`. -/
theorem decodeInstr_of_some {w : List Byte} {x : Instruction} (h : decode w = some x) :
    ∃ i, decodeInstr w = .ok i ∧ i.instruction = x := by
  obtain ⟨b, rest, op, m, hw, hT, hl, hx⟩ := decodeWith_some h
  have hs : (Instr.ofPair op (extract m w)).isSome = true := by
    rw [ofPair_isSome]
    simpa [hT] using opcodeTable_ofPair b
  obtain ⟨i, hi⟩ := Option.isSome_iff_exists.mp hs
  refine ⟨i, ?_, InstructionOf.eq_of_triple ?_⟩
  · cases hc : classifyWith opcodeTable w with
    | error e => simp [decode, decodeWith, hc] at h
    | ok y =>
      simp only [decode, decodeWith, hc, Option.some.injEq] at h
      subst h
      simp only [decodeInstr, hc, hx, hi]
  · rw [show i.instruction.toTriple = i.triple from rfl, ofPair_triple _ _ _ hi, hx, extract_mode]

/-- Where the decode has no result the decoder to `Instr` has none. -/
theorem decodeInstr_of_none {w : List Byte} (h : decode w = none) : ∃ e, decodeInstr w = .error e := by
  cases hd : decodeInstr w with
  | error e => exact ⟨e, rfl⟩
  | ok i => simp [decodeInstr_ok hd] at h

namespace Machine

/-- Every arm of `exec` is the successful walk step of its instruction's triple. -/
theorem exec_eq_emit (i : Instr) (s : State) : exec i s = .next (emit i.instruction s) := by cases i <;> rfl

/-- Everything a step of a ready state can do. -/
theorem step_of_ready {s : State} (hr : s.status = .running) (hl : s.len ≤ 2 ^ s.offw - 1) :
    (s.len ≤ s.off ∧ step s = .next (stop .stoppedExhausted s)) ∨
    (s.off < s.len ∧ decode (window s) = none ∧ step s = .next (stop .stoppedAbsent s)) ∨
    (∃ i, s.off < s.len ∧ decodeInstr (window s) = .ok i ∧ step s = .next (emit i.instruction s)) := by
  have hm : ¬ maxLen s.offw < s.len := by unfold maxLen; omega
  by_cases hx : s.len ≤ s.off
  · exact .inl ⟨hx, by simp only [step, fetch, hm, if_false, hr, hx, if_true]⟩
  · have hlt : s.off < s.len := by omega
    cases hd : decodeInstr (window s) with
    | error e =>
      refine .inr (.inl ⟨hlt, ?_, by simp only [step, fetch, hm, if_false, hr, hx, hd]⟩)
      cases hn : decode (window s) with
      | none => rfl
      | some x =>
        obtain ⟨i, hi, _⟩ := decodeInstr_of_some hn
        simp [hd] at hi
    | ok i =>
      exact .inr (.inr ⟨i, hlt, rfl, by simp only [step, fetch, hm, if_false, hr, hx, hd, exec_eq_emit]⟩)

/-- A step that answers a next state was taken in a ready state. -/
theorem ready_of_step {s t : State} (h : step s = .next t) : s.status = .running ∧ s.len ≤ 2 ^ s.offw - 1 := by
  by_cases hm : maxLen s.offw < s.len
  · simp [step, fetch, hm] at h
  · refine ⟨?_, by unfold maxLen at hm; omega⟩
    cases hs : s.status with
    | running => rfl
    | stoppedExhausted => simp [step, fetch, hm, hs] at h
    | stoppedAbsent => simp [step, fetch, hm, hs] at h

/-- The inversion of a step: what a next state can be. -/
theorem step_cases {s t : State} (h : step s = .next t) :
    (s.len ≤ s.off ∧ t = stop .stoppedExhausted s) ∨
    (s.off < s.len ∧ decode (window s) = none ∧ t = stop .stoppedAbsent s) ∨
    (∃ i, s.off < s.len ∧ decodeInstr (window s) = .ok i ∧ t = emit i.instruction s) := by
  obtain ⟨hr, hl⟩ := ready_of_step h
  rcases step_of_ready hr hl with ⟨hx, hs⟩ | ⟨hx, hd, hs⟩ | ⟨i, hx, hd, hs⟩ <;> rw [hs] at h <;>
    simp only [Host.Outcome.next.injEq] at h
  · exact .inl ⟨hx, h.symm⟩
  · exact .inr (.inl ⟨hx, hd, h.symm⟩)
  · exact .inr (.inr ⟨i, hx, hd, h.symm⟩)

end Machine

end Sys2Proof
end

