-- ==== Sys2Proof/Laws/Walk.lean ====
section
/-! SUPPORT. The WALK pseudocode over registers: the small lemmas of registers and buffer, and everything one WALK step can
do. -/

namespace Sys2Proof.Machine

variable (s : State) (r : Fseq opcodeTable)

@[simp] theorem registers_off : s.registers.off = s.off := rfl
@[simp] theorem registers_status : s.registers.status = s.status := rfl
@[simp] theorem registers_trace : s.registers.trace = s.trace := rfl
@[simp] theorem withRegisters_off : (s.withRegisters r).off = r.off := rfl
@[simp] theorem withRegisters_status : (s.withRegisters r).status = r.status := rfl
@[simp] theorem withRegisters_trace : (s.withRegisters r).trace = r.trace := rfl
@[simp] theorem withRegisters_mem : (s.withRegisters r).mem = s.mem := rfl
@[simp] theorem withRegisters_len : (s.withRegisters r).len = s.len := rfl
@[simp] theorem withRegisters_offw : (s.withRegisters r).offw = s.offw := rfl
@[simp] theorem registers_withRegisters : (s.withRegisters r).registers = r := rfl

@[simp] theorem buffer_length : s.buffer.length = s.len := by simp [State.buffer, suffixAt]

/-- The window is the buffer from `off` on. -/
theorem buffer_drop : s.buffer.drop s.off = window s := by simp [State.buffer, window, suffixAt, bytesFrom_drop]

/-- Everything a WALK step of a running FSEQ can do (R161 to R163). -/
theorem walkStepWith_cases (T : OpcodeTable) (buf : List Byte) (r : Fseq T) (hr : r.status = .running) :
    (buf.length ≤ r.off ∧ walkStepWith T buf r = some { r with status := .stoppedExhausted }) ∨
    (r.off < buf.length ∧ decodeWith T (buf.drop r.off) = none ∧
      walkStepWith T buf r = some { r with status := .stoppedAbsent }) ∨
    (∃ i, r.off < buf.length ∧ decodeWith T (buf.drop r.off) = some i ∧ r.off + i.size ≤ buf.length ∧
      walkStepWith T buf r = some { r with trace := r.trace ++ [(r.off, i)], off := r.off + i.size }) := by
  by_cases hx : buf.length ≤ r.off
  · exact .inl ⟨hx, by simp [walkStepWith, hr, hx]⟩
  · have hlt : r.off < buf.length := by omega
    cases hd : decodeWith T (buf.drop r.off) with
    | none => exact .inr (.inl ⟨hlt, rfl, by simp [walkStepWith, hr, hx, hd]⟩)
    | some i =>
      have hs := (decodeWith_size hd).2.2
      rw [List.length_drop] at hs
      exact .inr (.inr ⟨i, hlt, rfl, by omega, by simp [walkStepWith, hr, hx, hd]⟩)

/-- There is no WALK step when `status` is not Running (R160). -/
theorem walkStepWith_stopped (T : OpcodeTable) (buf : List Byte) (r : Fseq T) (hr : r.status ≠ .running) :
    walkStepWith T buf r = none := by simp [walkStepWith, hr]

end Sys2Proof.Machine
end

