-- ==== Sys2Proof/Tests/Slice0.lean ====
section
/-! SUPPORT. Tests of the definitions, with expected results from spec/ (95_test_vectors, and the rules named at each),
and for every statement of Obligations.lean that has hypotheses a concrete case that meets them all. -/

namespace Sys2Proof.Tests

open Machine

/-! ### Helpers -/

/-- A walk of `bs` that has come to offset `k`, with no trace. -/
def walking (bs : List Byte) (k : Nat) : State := { hostLoad bs State.reset with off := k }

/-- The triple a window decodes to. -/
def decoded (w : List Byte) : Option Triple := (decode w).map InstructionOf.toTriple

/-- What one step leaves in FSEQ's registers, if it answers a next state; of the trace, the triples. -/
def registersAfter (s : State) : Option (Nat × Status × List (Nat × Triple)) :=
  match step s with
  | .next t => some (t.off, t.status, t.trace.map fun p => (p.1, p.2.toTriple))
  | .fault _ => none
  | .refused _ => none

/-- What one step is refused for, if it is. -/
def refusalOf (s : State) : Option Refusal :=
  match step s with
  | .next _ => none
  | .fault _ => none
  | .refused r => some r

/-- The program P2 of 95 section 3. -/
def p2 : List Byte := [0x18#8, 0x69#8, 0x05#8, 0x02#8, 0xEA#8, 0xEA#8]

/-- The program P5 of 95 section 3. -/
def p5 : List Byte := [0x00#8, 0x00#8, 0xA9#8, 0x00#8, 0x00#8, 0x4C#8]

/-! ### Well-formedness: an ill-formed term for each check is refused, its neighbours are not (R25, R26) -/

theorem test_relative_above_range : (Operand.relative 128).wf = false ∧ (Operand.relative 127).wf = true := by decide

theorem test_relative_below_range : (Operand.relative (-129)).wf = false ∧ (Operand.relative (-128)).wf = true := by
  decide

theorem test_size_not_the_modes :
    (Triple.mk .lda (.immediate 0#8) 3).wf = false ∧ (Triple.mk .lda (.immediate 0#8) 2).wf = true ∧
    (Triple.mk .lda (.absolute 0#16) 2).wf = false ∧ (Triple.mk .tax .implied 2).wf = false ∧
    (Triple.mk .asl .accumulator 0).wf = false := by decide

theorem test_payload_out_of_range_in_instruction : (Triple.mk .beq (.relative 240) 2).wf = false := by decide

theorem test_branch_above_range :
    [Instr.bccRel 128, .bcsRel 128, .beqRel 128, .bmiRel 128, .bneRel 128, .bplRel 128, .bvcRel 128,
      .bvsRel 128].all (fun i => !i.wf) = true := by decide

theorem test_branch_below_range :
    [Instr.bccRel (-129), .bcsRel (-129), .beqRel (-129), .bmiRel (-129), .bneRel (-129), .bplRel (-129),
      .bvcRel (-129), .bvsRel (-129)].all (fun i => !i.wf) = true := by decide

theorem witness_branch_range_ends :
    [Instr.bccRel 127, .bcsRel (-128), .beqRel 0, .bmiRel (-1), .bneRel 127, .bplRel (-128), .bvcRel 127,
      .bvsRel (-128)].all (fun i => i.wf && decide (decodeInstr (encode i) = .ok i)) = true := by decide

/-! ### The Instruction type (R26): its own example of a triple that breaks the invariants is no Instruction -/

theorem test_no_nop_absolute (i : Instruction) : i.toTriple ≠ ⟨.nop, .absolute 0#16, 1⟩ := by
  intro h
  have := i.sizeIsModes
  rw [h] at this
  exact absurd this (by decide)

/-- Invariant (a) alone excludes it too: no slot holds NOP with mode Absolute. -/
theorem test_no_nop_absolute_entry (i : Instruction) : i.toTriple ≠ ⟨.nop, .absolute 0#16, 3⟩ := by
  intro h
  have := i.tagIsEntrys
  rw [h] at this
  exact absurd this (by decide)

/-! ### Decoding -/

/-- Words written out bit by bit from the encodings of files 41 to 46 (R80, R86, R88). -/
theorem test_words_bit_by_bit :
    decodeInstr [0b10000101#8, 0b00000111#8] = .ok (.staZp 0x07#8) ∧
    decodeInstr [0b10011010#8] = .ok .txs ∧
    decodeInstr [0b01101101#8, 0b00000001#8, 0b00000010#8] = .ok (.adcAbs 0x0102#16) ∧
    decodeInstr [0b00001010#8] = .ok .aslAcc ∧
    decodeInstr [0b00110000#8, 0b10011100#8] = .ok (.bmiRel (-100)) ∧
    decodeInstr [0b00100000#8, 0b11000000#8, 0b11011110#8] = .ok (.jsrAbs 0xC0DE#16) ∧
    decodeInstr [0b11011000#8] = .ok .cld := by decide

/-- 95 section 2.2: the spot checks among the undefined bytes, with any padding. -/
theorem test_undefined_spot_checks :
    [0x02#8, 0xFF#8, 0x80#8, 0x89#8, 0xEB#8, 0x1A#8, 0x3A#8, 0x9C#8, 0x9E#8, 0x6B#8, 0x7C#8].all
      (fun b => (decode [b]).isNone && (decode [b, 0#8, 0#8]).isNone && (decode [b, 0xFF#8, 0xFF#8]).isNone &&
        decide (decodeInstr [b, 0x12#8, 0x34#8] = .error .unmapped)) = true := by decide

/-- 95 section 2.3: a two-byte mode at every length 0 to N + 1. -/
theorem test_truncation_two_bytes :
    decoded [] = none ∧ decoded [0xD0#8] = none ∧
    decoded [0xD0#8, 0xAB#8] = some ⟨.bne, .relative (-85), 2⟩ ∧
    decoded [0xD0#8, 0xAB#8, 0xCD#8] = some ⟨.bne, .relative (-85), 2⟩ := by decide

/-- 95 section 2.3: a three-byte mode at every length 1 to N + 1. -/
theorem test_truncation_three_bytes :
    decoded [0x6C#8] = none ∧ decoded [0x6C#8, 0xAB#8] = none ∧
    decoded [0x6C#8, 0xAB#8, 0xCD#8] = some ⟨.jmp, .indirect 0xABCD#16, 3⟩ ∧
    decoded [0x6C#8, 0xAB#8, 0xCD#8, 0xEF#8] = some ⟨.jmp, .indirect 0xABCD#16, 3⟩ := by decide

/-- 95 section 2.4: the ends of the signed range and the source's -16. -/
theorem test_relative_corners :
    decoded [0xD0#8, 0x7F#8] = some ⟨.bne, .relative 127, 2⟩ ∧
    decoded [0xD0#8, 0x80#8] = some ⟨.bne, .relative (-128), 2⟩ ∧
    decoded [0xD0#8, 0xFF#8] = some ⟨.bne, .relative (-1), 2⟩ ∧
    decoded [0xF0#8, 0xF0#8] = some ⟨.beq, .relative (-16), 2⟩ := by decide

/-- 95 section 2.4: high byte first, and 8-bit and 16-bit payloads unsigned. -/
theorem test_payload_corners :
    decoded [0xAD#8, 0x01#8, 0x02#8] = some ⟨.lda, .absolute 258#16, 3⟩ ∧
    decoded [0xAD#8, 0x80#8, 0x00#8] = some ⟨.lda, .absolute 32768#16, 3⟩ ∧
    decoded [0xB9#8, 0x0A#8, 0x0B#8] = some ⟨.lda, .absoluteY 0x0A0B#16, 3⟩ ∧
    decoded [0xA9#8, 0xFF#8] = some ⟨.lda, .immediate 255#8, 2⟩ := by decide

/-- The numbering of bits of spec/opcode_table.json, and operand bytes of zeros where the table gives none. -/
theorem test_table_word :
    decodeTableWord 8 0xAD = some (.ldaAbs 0#16) ∧ decodeTableWord 24 0x3412AD = some (.ldaAbs 0x1234#16) ∧
    decodeTableWord 16 0xF0F0 = some (.beqRel (-16)) ∧ decodeTableWord 8 0x02 = none := by decide

/-- A row `(opcode, instruction, text)` holds of the window `[opcode, 0x12, 0x34]`. -/
def rowDecodes (r : Byte × Instr × String) : Bool :=
  decide (decodeInstr [r.1, 0x12#8, 0x34#8] = .ok r.2.1) && decide (render r.2.1.triple = r.2.2.toList)

/-- The row's window stands at `off` of a ready state, the instruction's own bytes are its first ones, and the
instruction is well formed. -/
def rowStands (r : Byte × Instr × String) : Bool :=
  let s := State.reset.withFetchWord 24 (r.1.toNat + 256 * 0x12 + 65536 * 0x34)
  decide (Ready s) && decide (window s = [r.1, 0x12#8, 0x34#8]) && decide (StandsAt s (encode r.2.1)) &&
    decide (r.2.1.instruction.size ≤ (window s).length) && r.2.1.wf

/-- Opcodes of file 41 and what `[b, 0x12, 0x34]` decodes to and renders as (95 section 2.1). -/
def loadStoreRowsA : List (Byte × Instr × String) :=
  [(0xA1#8, .ldaIzx 0x12#8, "LDA ($12,X)"),
   (0xA5#8, .ldaZp 0x12#8, "LDA $12"),
   (0xA9#8, .ldaImm 0x12#8, "LDA #$12"),
   (0xAD#8, .ldaAbs 0x1234#16, "LDA $1234"),
   (0xB1#8, .ldaIzy 0x12#8, "LDA ($12),Y"),
   (0xB5#8, .ldaZpx 0x12#8, "LDA $12"),
   (0xB9#8, .ldaAby 0x1234#16, "LDA $1234"),
   (0xBD#8, .ldaAbx 0x1234#16, "LDA $1234"),
   (0xA2#8, .ldxImm 0x12#8, "LDX #$12"),
   (0xA6#8, .ldxZp 0x12#8, "LDX $12"),
   (0xAE#8, .ldxAbs 0x1234#16, "LDX $1234"),
   (0xB6#8, .ldxZpy 0x12#8, "LDX $12")]

/-- Opcodes of file 41 and what `[b, 0x12, 0x34]` decodes to and renders as (95 section 2.1). -/
def loadStoreRowsB : List (Byte × Instr × String) :=
  [(0xBE#8, .ldxAby 0x1234#16, "LDX $1234"),
   (0xA0#8, .ldyImm 0x12#8, "LDY #$12"),
   (0xA4#8, .ldyZp 0x12#8, "LDY $12"),
   (0xAC#8, .ldyAbs 0x1234#16, "LDY $1234"),
   (0xB4#8, .ldyZpx 0x12#8, "LDY $12"),
   (0xBC#8, .ldyAbx 0x1234#16, "LDY $1234"),
   (0x81#8, .staIzx 0x12#8, "STA ($12,X)"),
   (0x85#8, .staZp 0x12#8, "STA $12"),
   (0x8D#8, .staAbs 0x1234#16, "STA $1234"),
   (0x91#8, .staIzy 0x12#8, "STA ($12),Y"),
   (0x95#8, .staZpx 0x12#8, "STA $12"),
   (0x99#8, .staAby 0x1234#16, "STA $1234")]

/-- Opcodes of file 41 and what `[b, 0x12, 0x34]` decodes to and renders as (95 section 2.1). -/
def loadStoreRowsC : List (Byte × Instr × String) :=
  [(0x9D#8, .staAbx 0x1234#16, "STA $1234"),
   (0x86#8, .stxZp 0x12#8, "STX $12"),
   (0x8E#8, .stxAbs 0x1234#16, "STX $1234"),
   (0x96#8, .stxZpy 0x12#8, "STX $12"),
   (0x84#8, .styZp 0x12#8, "STY $12"),
   (0x8C#8, .styAbs 0x1234#16, "STY $1234"),
   (0x94#8, .styZpx 0x12#8, "STY $12")]

/-- All rows of file 41. -/
def loadStoreRows : List (Byte × Instr × String) :=
  loadStoreRowsA ++ loadStoreRowsB ++ loadStoreRowsC

theorem test_decode_load_store : loadStoreRows.all rowDecodes = true := by decide

/-- Every row meets the hypotheses of the decode rules and of the completion statement of its family. -/
theorem witness_load_store : loadStoreRows.all rowStands = true := by decide

/-- Opcodes of file 42 and what `[b, 0x12, 0x34]` decodes to and renders as (95 section 2.1). -/
def transferStackRows : List (Byte × Instr × String) :=
  [(0xAA#8, .tax, "TAX"),
   (0xA8#8, .tay, "TAY"),
   (0xBA#8, .tsx, "TSX"),
   (0x8A#8, .txa, "TXA"),
   (0x9A#8, .txs, "TXS"),
   (0x98#8, .tya, "TYA"),
   (0x48#8, .pha, "PHA"),
   (0x08#8, .php, "PHP"),
   (0x68#8, .pla, "PLA"),
   (0x28#8, .plp, "PLP")]

theorem test_decode_transfer_stack : transferStackRows.all rowDecodes = true := by decide

/-- Every row meets the hypotheses of the decode rules and of the completion statement of its family. -/
theorem witness_transfer_stack : transferStackRows.all rowStands = true := by decide

/-- Opcodes of file 43 and what `[b, 0x12, 0x34]` decodes to and renders as (95 section 2.1). -/
def arithLogicRowsA : List (Byte × Instr × String) :=
  [(0x61#8, .adcIzx 0x12#8, "ADC ($12,X)"),
   (0x65#8, .adcZp 0x12#8, "ADC $12"),
   (0x69#8, .adcImm 0x12#8, "ADC #$12"),
   (0x6D#8, .adcAbs 0x1234#16, "ADC $1234"),
   (0x71#8, .adcIzy 0x12#8, "ADC ($12),Y"),
   (0x75#8, .adcZpx 0x12#8, "ADC $12"),
   (0x79#8, .adcAby 0x1234#16, "ADC $1234"),
   (0x7D#8, .adcAbx 0x1234#16, "ADC $1234"),
   (0xE1#8, .sbcIzx 0x12#8, "SBC ($12,X)"),
   (0xE5#8, .sbcZp 0x12#8, "SBC $12"),
   (0xE9#8, .sbcImm 0x12#8, "SBC #$12"),
   (0xED#8, .sbcAbs 0x1234#16, "SBC $1234")]

/-- Opcodes of file 43 and what `[b, 0x12, 0x34]` decodes to and renders as (95 section 2.1). -/
def arithLogicRowsB : List (Byte × Instr × String) :=
  [(0xF1#8, .sbcIzy 0x12#8, "SBC ($12),Y"),
   (0xF5#8, .sbcZpx 0x12#8, "SBC $12"),
   (0xF9#8, .sbcAby 0x1234#16, "SBC $1234"),
   (0xFD#8, .sbcAbx 0x1234#16, "SBC $1234"),
   (0x21#8, .andIzx 0x12#8, "AND ($12,X)"),
   (0x25#8, .andZp 0x12#8, "AND $12"),
   (0x29#8, .andImm 0x12#8, "AND #$12"),
   (0x2D#8, .andAbs 0x1234#16, "AND $1234"),
   (0x31#8, .andIzy 0x12#8, "AND ($12),Y"),
   (0x35#8, .andZpx 0x12#8, "AND $12"),
   (0x39#8, .andAby 0x1234#16, "AND $1234"),
   (0x3D#8, .andAbx 0x1234#16, "AND $1234")]

/-- Opcodes of file 43 and what `[b, 0x12, 0x34]` decodes to and renders as (95 section 2.1). -/
def arithLogicRowsC : List (Byte × Instr × String) :=
  [(0x01#8, .oraIzx 0x12#8, "ORA ($12,X)"),
   (0x05#8, .oraZp 0x12#8, "ORA $12"),
   (0x09#8, .oraImm 0x12#8, "ORA #$12"),
   (0x0D#8, .oraAbs 0x1234#16, "ORA $1234"),
   (0x11#8, .oraIzy 0x12#8, "ORA ($12),Y"),
   (0x15#8, .oraZpx 0x12#8, "ORA $12"),
   (0x19#8, .oraAby 0x1234#16, "ORA $1234"),
   (0x1D#8, .oraAbx 0x1234#16, "ORA $1234"),
   (0x41#8, .eorIzx 0x12#8, "EOR ($12,X)"),
   (0x45#8, .eorZp 0x12#8, "EOR $12"),
   (0x49#8, .eorImm 0x12#8, "EOR #$12"),
   (0x4D#8, .eorAbs 0x1234#16, "EOR $1234")]

/-- Opcodes of file 43 and what `[b, 0x12, 0x34]` decodes to and renders as (95 section 2.1). -/
def arithLogicRowsD : List (Byte × Instr × String) :=
  [(0x51#8, .eorIzy 0x12#8, "EOR ($12),Y"),
   (0x55#8, .eorZpx 0x12#8, "EOR $12"),
   (0x59#8, .eorAby 0x1234#16, "EOR $1234"),
   (0x5D#8, .eorAbx 0x1234#16, "EOR $1234"),
   (0xC1#8, .cmpIzx 0x12#8, "CMP ($12,X)"),
   (0xC5#8, .cmpZp 0x12#8, "CMP $12"),
   (0xC9#8, .cmpImm 0x12#8, "CMP #$12"),
   (0xCD#8, .cmpAbs 0x1234#16, "CMP $1234"),
   (0xD1#8, .cmpIzy 0x12#8, "CMP ($12),Y"),
   (0xD5#8, .cmpZpx 0x12#8, "CMP $12"),
   (0xD9#8, .cmpAby 0x1234#16, "CMP $1234"),
   (0xDD#8, .cmpAbx 0x1234#16, "CMP $1234")]

/-- Opcodes of file 43 and what `[b, 0x12, 0x34]` decodes to and renders as (95 section 2.1). -/
def arithLogicRowsE : List (Byte × Instr × String) :=
  [(0xE0#8, .cpxImm 0x12#8, "CPX #$12"),
   (0xE4#8, .cpxZp 0x12#8, "CPX $12"),
   (0xEC#8, .cpxAbs 0x1234#16, "CPX $1234"),
   (0xC0#8, .cpyImm 0x12#8, "CPY #$12"),
   (0xC4#8, .cpyZp 0x12#8, "CPY $12"),
   (0xCC#8, .cpyAbs 0x1234#16, "CPY $1234"),
   (0x24#8, .bitZp 0x12#8, "BIT $12"),
   (0x2C#8, .bitAbs 0x1234#16, "BIT $1234")]

/-- All rows of file 43. -/
def arithLogicRows : List (Byte × Instr × String) :=
  arithLogicRowsA ++ arithLogicRowsB ++ arithLogicRowsC ++ arithLogicRowsD ++ arithLogicRowsE

theorem test_decode_arith_logic : arithLogicRows.all rowDecodes = true := by decide

/-- Every row meets the hypotheses of the decode rules and of the completion statement of its family. -/
theorem witness_arith_logic : arithLogicRows.all rowStands = true := by decide

/-- Opcodes of file 44 and what `[b, 0x12, 0x34]` decodes to and renders as (95 section 2.1). -/
def shiftIncDecRowsA : List (Byte × Instr × String) :=
  [(0x06#8, .aslZp 0x12#8, "ASL $12"),
   (0x0A#8, .aslAcc, "ASL A"),
   (0x0E#8, .aslAbs 0x1234#16, "ASL $1234"),
   (0x16#8, .aslZpx 0x12#8, "ASL $12"),
   (0x1E#8, .aslAbx 0x1234#16, "ASL $1234"),
   (0x46#8, .lsrZp 0x12#8, "LSR $12"),
   (0x4A#8, .lsrAcc, "LSR A"),
   (0x4E#8, .lsrAbs 0x1234#16, "LSR $1234"),
   (0x56#8, .lsrZpx 0x12#8, "LSR $12"),
   (0x5E#8, .lsrAbx 0x1234#16, "LSR $1234"),
   (0x26#8, .rolZp 0x12#8, "ROL $12"),
   (0x2A#8, .rolAcc, "ROL A")]

/-- Opcodes of file 44 and what `[b, 0x12, 0x34]` decodes to and renders as (95 section 2.1). -/
def shiftIncDecRowsB : List (Byte × Instr × String) :=
  [(0x2E#8, .rolAbs 0x1234#16, "ROL $1234"),
   (0x36#8, .rolZpx 0x12#8, "ROL $12"),
   (0x3E#8, .rolAbx 0x1234#16, "ROL $1234"),
   (0x66#8, .rorZp 0x12#8, "ROR $12"),
   (0x6A#8, .rorAcc, "ROR A"),
   (0x6E#8, .rorAbs 0x1234#16, "ROR $1234"),
   (0x76#8, .rorZpx 0x12#8, "ROR $12"),
   (0x7E#8, .rorAbx 0x1234#16, "ROR $1234"),
   (0xE6#8, .incZp 0x12#8, "INC $12"),
   (0xEE#8, .incAbs 0x1234#16, "INC $1234"),
   (0xF6#8, .incZpx 0x12#8, "INC $12"),
   (0xFE#8, .incAbx 0x1234#16, "INC $1234")]

/-- Opcodes of file 44 and what `[b, 0x12, 0x34]` decodes to and renders as (95 section 2.1). -/
def shiftIncDecRowsC : List (Byte × Instr × String) :=
  [(0xC6#8, .decZp 0x12#8, "DEC $12"),
   (0xCE#8, .decAbs 0x1234#16, "DEC $1234"),
   (0xD6#8, .decZpx 0x12#8, "DEC $12"),
   (0xDE#8, .decAbx 0x1234#16, "DEC $1234"),
   (0xE8#8, .inx, "INX"),
   (0xC8#8, .iny, "INY"),
   (0xCA#8, .dex, "DEX"),
   (0x88#8, .dey, "DEY")]

/-- All rows of file 44. -/
def shiftIncDecRows : List (Byte × Instr × String) :=
  shiftIncDecRowsA ++ shiftIncDecRowsB ++ shiftIncDecRowsC

theorem test_decode_shift_inc_dec : shiftIncDecRows.all rowDecodes = true := by decide

/-- Every row meets the hypotheses of the decode rules and of the completion statement of its family. -/
theorem witness_shift_inc_dec : shiftIncDecRows.all rowStands = true := by decide

/-- Opcodes of file 45 and what `[b, 0x12, 0x34]` decodes to and renders as (95 section 2.1). -/
def branchRows : List (Byte × Instr × String) :=
  [(0x90#8, .bccRel 18, "BCC $12"),
   (0xB0#8, .bcsRel 18, "BCS $12"),
   (0xF0#8, .beqRel 18, "BEQ $12"),
   (0x30#8, .bmiRel 18, "BMI $12"),
   (0xD0#8, .bneRel 18, "BNE $12"),
   (0x10#8, .bplRel 18, "BPL $12"),
   (0x50#8, .bvcRel 18, "BVC $12"),
   (0x70#8, .bvsRel 18, "BVS $12")]

theorem test_decode_branch : branchRows.all rowDecodes = true := by decide

/-- Every row meets the hypotheses of the decode rules and of the completion statement of its family. -/
theorem witness_branch : branchRows.all rowStands = true := by decide

/-- Opcodes of file 46 and what `[b, 0x12, 0x34]` decodes to and renders as (95 section 2.1). -/
def jumpSystemFlagRowsA : List (Byte × Instr × String) :=
  [(0x4C#8, .jmpAbs 0x1234#16, "JMP $1234"),
   (0x6C#8, .jmpInd 0x1234#16, "JMP ($1234)"),
   (0x20#8, .jsrAbs 0x1234#16, "JSR $1234"),
   (0x60#8, .rts, "RTS"),
   (0x40#8, .rti, "RTI"),
   (0x00#8, .brk, "BRK"),
   (0xEA#8, .nop, "NOP"),
   (0x18#8, .clc, "CLC"),
   (0xD8#8, .cld, "CLD"),
   (0x58#8, .cli, "CLI"),
   (0xB8#8, .clv, "CLV"),
   (0x38#8, .sec, "SEC")]

/-- Opcodes of file 46 and what `[b, 0x12, 0x34]` decodes to and renders as (95 section 2.1). -/
def jumpSystemFlagRowsB : List (Byte × Instr × String) :=
  [(0xF8#8, .sed, "SED"),
   (0x78#8, .sei, "SEI")]

/-- All rows of file 46. -/
def jumpSystemFlagRows : List (Byte × Instr × String) :=
  jumpSystemFlagRowsA ++ jumpSystemFlagRowsB

theorem test_decode_jump_system_flag : jumpSystemFlagRows.all rowDecodes = true := by decide

/-- Every row meets the hypotheses of the decode rules and of the completion statement of its family. -/
theorem witness_jump_system_flag : jumpSystemFlagRows.all rowStands = true := by decide

/-! ### Rendering (95 sections 1 and 2.5) -/

theorem test_render_source_examples :
    render ⟨.ldy, .immediate 0x00#8, 2⟩ = "LDY #$00".toList ∧
    renderOperand (.absolute 0x1234#16) = "$1234".toList ∧
    render ⟨.lda, .indirectIndexed 0x80#8, 2⟩ = "LDA ($80),Y".toList := by decide

theorem test_render_shapes :
    renderOperand (.absoluteX 0x0001#16) = "$0001".toList ∧ renderOperand (.accumulator) = "A".toList ∧
    renderOperand (.immediate 0x0F#8) = "#$0F".toList ∧ renderOperand .implied = [] ∧
    renderOperand (.indexedIndirect 0xBE#8) = "($BE,X)".toList ∧
    renderOperand (.indirect 0xFFFC#16) = "($FFFC)".toList ∧
    renderOperand (.indirectIndexed 0xEF#8) = "($EF),Y".toList ∧
    renderOperand (.relative (-100)) = "$9C".toList ∧ renderOperand (.relative 10) = "$0A".toList ∧
    renderOperand (.zeroPageY 0x10#8) = "$10".toList ∧ render ⟨.clc, .implied, 1⟩ = "CLC".toList := by decide

/-! ### Ports (95 section 2.6) -/

theorem test_ports_valid :
    ifdOutputs ⟨0xA0#8, 0x00#8, 0x55#8, 2#2⟩ = ⟨1#1, 31#6, 4#4, 0x0000#16, 2#2⟩ ∧
    ifdOutputs ⟨0xF0#8, 0xF0#8, 0x55#8, 3#2⟩ = ⟨1#1, 5#6, 9#4, 0x00F0#16, 2#2⟩ ∧
    ifdOutputs ⟨0xAD#8, 0x12#8, 0x34#8, 3#2⟩ = ⟨1#1, 29#6, 0#4, 0x1234#16, 3#2⟩ ∧
    ifdOutputs ⟨0x98#8, 0x55#8, 0x55#8, 1#2⟩ = ⟨1#1, 55#6, 5#4, 0x0000#16, 1#2⟩ ∧
    ifdOutputs ⟨0x96#8, 0x7F#8, 0x55#8, 3#2⟩ = ⟨1#1, 48#6, 12#4, 0x007F#16, 2#2⟩ := by decide

theorem test_ports_invalid :
    ifdOutputs ⟨0xA0#8, 0x00#8, 0x00#8, 1#2⟩ = ⟨0#1, 0#6, 0#4, 0#16, 0#2⟩ ∧
    ifdOutputs ⟨0xEA#8, 0x00#8, 0x00#8, 0#2⟩ = ⟨0#1, 0#6, 0#4, 0#16, 0#2⟩ ∧
    ifdOutputs ⟨0xAD#8, 0x12#8, 0x34#8, 2#2⟩ = ⟨0#1, 0#6, 0#4, 0#16, 0#2⟩ ∧
    ifdOutputs ⟨0x02#8, 0x12#8, 0x34#8, 3#2⟩ = ⟨0#1, 0#6, 0#4, 0#16, 0#2⟩ := by decide

theorem test_ports_read_back :
    (ifdOutputs ⟨0xF0#8, 0xF0#8, 0#8, 2#2⟩).read = some ⟨.beq, .relative (-16), 2⟩ ∧
    (currentOutputs (walking p2 1)).read = some ⟨.adc, .immediate 0x05#8, 2⟩ := by decide

/-! ### Single steps (95 section 3) -/

theorem test_step_sizes :
    registersAfter (walking p2 0) = some (1, .running, [(0, ⟨.clc, .implied, 1⟩)]) ∧
    registersAfter (walking p2 1) = some (3, .running, [(1, ⟨.adc, .immediate 0x05#8, 2⟩)]) ∧
    registersAfter (walking [0xAD#8, 0x34#8, 0x12#8, 0x8D#8, 0x00#8, 0xD0#8, 0x4C#8, 0x00#8, 0xC0#8] 3) =
      some (6, .running, [(3, ⟨.sta, .absolute 0x00D0#16, 3⟩)]) := ⟨rfl, rfl, rfl⟩

theorem test_step_zeros :
    registersAfter (walking p5 0) = some (1, .running, [(0, ⟨.brk, .implied, 1⟩)]) ∧
    registersAfter (walking p5 2) = some (4, .running, [(2, ⟨.lda, .immediate 0x00#8, 2⟩)]) ∧
    registersAfter (walking p5 3) = some (4, .running, [(3, ⟨.brk, .implied, 1⟩)]) := ⟨rfl, rfl, rfl⟩

theorem test_step_stops :
    registersAfter (walking p2 3) = some (3, .stoppedAbsent, []) ∧
    registersAfter (walking p5 5) = some (5, .stoppedAbsent, []) ∧
    registersAfter (walking p2 6) = some (6, .stoppedExhausted, []) ∧
    registersAfter State.reset = some (0, .stoppedExhausted, []) :=
  ⟨rfl, rfl, rfl, rfl⟩

/-- R305: the cause of an absence, recomputed. -/
theorem test_absence_cause :
    absenceAt opcodeTable (walking p2 3) = some .unmapped ∧ absenceAt opcodeTable (walking p5 5) = some .truncated ∧
    absenceAt opcodeTable (walking p2 6) = some .emptyWindow ∧ absenceAt opcodeTable (walking p2 0) = none := by decide

/-- R166: after the stop of P2 the host walks `buf[4..]`; the first pair has offset 0. -/
theorem test_restart :
    registersAfter (hostRestartAt 4 (walking p2 3)) = some (1, .running, [(0, ⟨.nop, .implied, 1⟩)]) := by decide

theorem test_fetch_word :
    registersAfter (State.reset.withFetchWord 8 0x4C) = some (3, .running, [(0, ⟨.jmp, .absolute 0#16, 3⟩)]) ∧
    registersAfter (State.reset.withFetchWord 16 0xF8D0) = some (2, .running, [(0, ⟨.bne, .relative (-8), 2⟩)]) :=
  ⟨rfl, rfl⟩

/-! ### Witnesses of the hypotheses of the statements -/

/-- ResetActsOnRegistersOnly: two states that differ only in FSEQ's registers. -/
theorem witness_reset : (walking p2 3).mem = (stop .stoppedAbsent (walking p2 4)).mem ∧
    (walking p2 3).len = (stop .stoppedAbsent (walking p2 4)).len ∧
    (walking p2 3).offw = (stop .stoppedAbsent (walking p2 4)).offw ∧
    walking p2 3 ≠ stop .stoppedAbsent (walking p2 4) := by decide

/-- WalkFromAnotherOffset: P2 come to offset 4 with a pair recorded, and its suffix from 4. -/
theorem witness_shifted :
    Ready { walking p2 4 with trace := [(0, Instr.clc.instruction)] } ∧
    Ready (hostLoad [0xEA#8, 0xEA#8] State.reset) ∧
    ShiftedBy 4 [(0, Instr.clc.instruction)] { walking p2 4 with trace := [(0, Instr.clc.instruction)] }
      (hostLoad [0xEA#8, 0xEA#8] State.reset) := by
  unfold ShiftedBy
  decide

/-- StepRunsDecodedInstruction, SuccessfulStepAdvancesBySize: ready states whose window decodes, one for each size. -/
theorem witness_decoding_states :
    Ready (walking p2 0) ∧ decodeInstr (window (walking p2 0)) = .ok .clc ∧
    decoded (window (walking p2 0)) = some ⟨.clc, .implied, 1⟩ ∧
    Ready (walking p2 1) ∧ decodeInstr (window (walking p2 1)) = .ok (.adcImm 0x05#8) ∧
    decoded (window (walking p2 1)) = some ⟨.adc, .immediate 0x05#8, 2⟩ ∧
    Ready (walking [0x20#8, 0xFF#8, 0xFF#8] 0) ∧
    decodeInstr (window (walking [0x20#8, 0xFF#8, 0xFF#8] 0)) = .ok (.jsrAbs 0xFFFF#16) ∧
    decoded (window (walking [0x20#8, 0xFF#8, 0xFF#8] 0)) = some ⟨.jsr, .absolute 0xFFFF#16, 3⟩ := by decide

/-- StepRunsTheEncodedInstruction: at the end of a branch's range, in the middle of a buffer. -/
theorem witness_encoded_stands :
    Ready (walking [0xEA#8, 0xD0#8, 0x80#8] 1) ∧ (Instr.bneRel (-128)).wf = true ∧
    StandsAt (walking [0xEA#8, 0xD0#8, 0x80#8] 1) (encode (.bneRel (-128))) := by decide

/-- AbsenceStopsTheWalk: an unmapped opcode; a truncated one with one byte too few of two and of three; the last byte of
a buffer. -/
theorem witness_absence :
    (Ready (walking p2 3) ∧ 3 < (walking p2 3).len ∧ decoded (window (walking p2 3)) = none ∧
      opcodeTable (readMem (walking p2 3).mem 3) = none) ∧
    (Ready (walking p5 5) ∧ (walking p5 5).off + 1 = (walking p5 5).len ∧
      opcodeTable (readMem (walking p5 5).mem 5) = some (.jmp, .absolute) ∧ 6 - 5 < AddressingMode.absolute.size) ∧
    (Ready (walking [0x20#8, 0x12#8] 0) ∧ 0 < (walking [0x20#8, 0x12#8] 0).len ∧
      opcodeTable (readMem (walking [0x20#8, 0x12#8] 0).mem 0) = some (.jsr, .absolute) ∧
      2 - 0 < AddressingMode.absolute.size) ∧
    Ready (walking [0xA9#8] 0) ∧ 0 < (walking [0xA9#8] 0).len ∧
      opcodeTable (readMem (walking [0xA9#8] 0).mem 0) = some (.lda, .immediate) ∧
      1 - 0 < AddressingMode.immediate.size := by decide

/-- ExhaustionStopsTheWalk: at the end, and past it. -/
theorem witness_exhaustion :
    (Ready (walking p2 6) ∧ (walking p2 6).len ≤ (walking p2 6).off) ∧
    Ready (walking p2 7) ∧ (walking p2 7).len ≤ (walking p2 7).off := by decide

/-- StepExistsExactlyWhenReady: one byte past the host's duty, exactly at it, and stopped. -/
theorem witness_step_refused :
    (¬ { walking [0xEA#8, 0xEA#8] 0 with offw := 1 }.len ≤ 2 ^ 1 - 1 ∧
      refusalOf { walking [0xEA#8, 0xEA#8] 0 with offw := 1 } = some .bufferTooLong) ∧
    Ready { walking [0xEA#8] 0 with offw := 1 } ∧
    (¬ Ready (stop .stoppedAbsent (walking p2 3)) ∧
      refusalOf (stop .stoppedAbsent (walking p2 3)) = some .walkStopped) ∧
    (stop .stoppedExhausted (walking p2 6)).len ≤ 2 ^ (stop .stoppedExhausted (walking p2 6)).offw - 1 ∧
    refusalOf (stop .stoppedExhausted (walking p2 6)) = some .walkStopped := by decide

/-- StepDependsOnThreeBytes: different histories, offsets and later bytes, the same three bytes; a decode and an
absence. -/
theorem witness_three_bytes :
    (Ready (walking [0xEA#8, 0xAD#8, 0x12#8, 0x34#8, 0x56#8] 1) ∧ Ready (walking [0xAD#8, 0x12#8, 0x34#8] 0) ∧
      (window (walking [0xEA#8, 0xAD#8, 0x12#8, 0x34#8, 0x56#8] 1)).take 3 =
        (window (walking [0xAD#8, 0x12#8, 0x34#8] 0)).take 3) ∧
    Ready (walking [0x02#8, 0xEA#8, 0xEA#8] 0) ∧
    (window (walking p2 3)).take 3 = (window (walking [0x02#8, 0xEA#8, 0xEA#8] 0)).take 3 ∧
    walking p2 3 ≠ walking [0x02#8, 0xEA#8, 0xEA#8] 0 := by decide

/-- InstructionsAndStepsLeaveTheRest: an instruction and the three kinds of step that answer a next state. -/
theorem witness_frame :
    exec (.staAbs 0x0000#16) (walking p2 0) = .next (recorded (walking p2 0) (Instr.staAbs 0x0000#16).instruction) ∧
    step (walking p2 1) = .next (recorded (walking p2 1) (Instr.adcImm 0x05#8).instruction) ∧
    step (walking p2 3) = .next (stop .stoppedAbsent (walking p2 3)) ∧
    step (walking p2 6) = .next (stop .stoppedExhausted (walking p2 6)) := ⟨rfl, rfl, rfl, rfl⟩

/-- P2 after its first step: a state of a walk with a pair in its trace. -/
def p2AtOne : State := { walking p2 1 with trace := [(0, Instr.clc.instruction)] }

/-- WalkBoundsAreKept. -/
theorem witness_bounds :
    WalkBounds p2AtOne ∧ step p2AtOne = .next (recorded p2AtOne (Instr.adcImm 0x05#8).instruction) :=
  ⟨by unfold WalkBounds; decide, rfl⟩

/-- StepKeepsWalkInvariant. -/
theorem witness_walk_invariant :
    WalkInvariant p2AtOne ∧ step p2AtOne = .next (recorded p2AtOne (Instr.adcImm 0x05#8).instruction) := by
  refine ⟨⟨rfl, rfl, by decide, by decide, ⟨rfl, rfl⟩, ?_, rfl⟩, rfl⟩
  intro p hp
  obtain rfl := List.mem_singleton.mp hp
  exact ⟨rfl, rfl, 0x18#8, rfl⟩

/-- WalkInvariantHoldsAtReset, WalkComputesTheSweep: the longest buffer the smallest widths admit, and the empty one. -/
theorem witness_longest_buffer :
    [0x20#8, 0x12#8, 0x34#8].length ≤ 2 ^ { State.reset with offw := 2 }.offw - 1 ∧
    ([] : List Byte).length ≤ 2 ^ { State.reset with offw := 0 }.offw - 1 := by decide

/-- WalkTerminates, WalkTerminatesForEveryTable: at the start, at the end, and in the smallest build. -/
theorem witness_terminates :
    (Ready (walking p2 0) ∧ (walking p2 0).off ≤ (walking p2 0).len) ∧
    (Ready (walking p2 6) ∧ (walking p2 6).off ≤ (walking p2 6).len) ∧
    Ready { State.reset with offw := 0 } ∧
    (walking p2 6).registers.status = .running ∧ (walking p2 6).registers.off ≤ p2.length ∧
    (walkWith opcodeTable [0x02#8] 2 ⟨0, .running, []⟩).status = .stoppedAbsent := by decide

/-- StepIsTheWalkPseudocode: a buffer within the host's duty, at its end, and one past it. -/
theorem witness_duty :
    { walking [0xEA#8, 0xEA#8, 0xEA#8] 0 with offw := 2 }.len ≤ 2 ^ 2 - 1 ∧
    ¬ { walking [0xEA#8, 0xEA#8, 0xEA#8, 0xEA#8] 0 with offw := 2 }.len ≤ 2 ^ 2 - 1 ∧
    (walkStepWith opcodeTable (walking p2 0).buffer (walking p2 0).registers).map Fseq.off = some 1 ∧
    walkStepWith opcodeTable p2 (stop .stoppedAbsent (walking p2 3)).registers = none := by decide

/-- PaddedDefinedOpcodesDecode, TruncationAndFirstBytesLaw, ExactlyTwoFailureConditions: a slot of each size, with
windows one byte short and just long enough. -/
theorem witness_slots :
    (opcodeTable 0xEA#8 = some (.nop, .implied) ∧ AddressingMode.implied.size = 1 ∧ 1 ≤ [0xEA#8].length) ∧
    (opcodeTable 0xD0#8 = some (.bne, .relative) ∧ AddressingMode.relative.size = 2 ∧
      [0xD0#8].length < 2 ∧ 2 ≤ [0xD0#8, 0x80#8].length) ∧
    (opcodeTable 0x6C#8 = some (.jmp, .indirect) ∧ AddressingMode.indirect.size = 3 ∧
      [0x6C#8, 0x00#8].length < 3 ∧ 3 ≤ [0x6C#8, 0x00#8, 0xFF#8].length) := by decide

/-- SizeAndTagLaws: Instructions of each size with operands in range, at the end of the signed one. -/
theorem witness_instructions :
    Instr.nop.instruction.operand.wf = true ∧ (Instr.beqRel (-128)).instruction.operand.wf = true ∧
    (Instr.jmpInd 0xFFFF#16).instruction.operand.wf = true ∧
    decode [0xF0#8, 0x80#8] = some (Instr.beqRel (-128)).instruction := by decide

/-- UndefinedOpcodesNeverDecode: the first and the last of the undefined bytes. -/
theorem witness_undefined : opcodeTable 0x02#8 = none ∧ opcodeTable 0xFF#8 = none ∧ 0x02#8 ∈ undefinedOpcodes := by
  decide

/-- SizeAndTagLaws, ResultDeterminesTheBytes, EncodeOfDecode: decodes of each size, and two windows that differ in the
operand's low byte only. -/
theorem witness_decodes :
    decodeInstr [0x98#8, 0xFF#8] = .ok .tya ∧ decoded [0x98#8, 0xFF#8] = some ⟨.tya, .implied, 1⟩ ∧
    decoded [0xF0#8, 0x7F#8] = some ⟨.beq, .relative 127, 2⟩ ∧
    decoded [0xAD#8, 0x12#8, 0x34#8] = some ⟨.lda, .absolute 0x1234#16, 3⟩ ∧
    decoded [0xAD#8, 0x12#8, 0x35#8] = some ⟨.lda, .absolute 0x1235#16, 3⟩ ∧
    [0xAD#8, 0x12#8, 0x34#8].take 3 ≠ [0xAD#8, 0x12#8, 0x35#8].take 3 := by decide

/-- DecodeReadsOnlyTheInstruction: equally long windows that agree on the indices read and differ elsewhere, for a
success and for a failure. -/
theorem witness_reads :
    (readsWith opcodeTable [0xEA#8, 0x01#8] = [0] ∧ ([0xEA#8, 0x01#8] : List Byte) ≠ [0xEA#8, 0x02#8] ∧
      ∀ k ∈ readsWith opcodeTable [0xEA#8, 0x01#8], [0xEA#8, 0x01#8][k]? = [0xEA#8, 0x02#8][k]?) ∧
    (decoded [0x20#8, 0x01#8] = none ∧ readsWith opcodeTable [0x20#8, 0x01#8] = [0] ∧
      ∀ k ∈ readsWith opcodeTable [0x20#8, 0x01#8], [0x20#8, 0x01#8][k]? = [0x20#8, 0x02#8][k]?) ∧
    decoded [0x20#8, 0x01#8, 0x02#8] = some ⟨.jsr, .absolute 0x0102#16, 3⟩ ∧
    readsWith opcodeTable [0x20#8, 0x01#8, 0x02#8] = [0, 1, 2] := by decide

/-- SignedByteReading: the bytes and the integers where its clauses meet (R10). -/
theorem witness_signed_byte :
    sint8 0x7F#8 = 127 ∧ sint8 0x80#8 = -128 ∧ sint8 0xFF#8 = -1 ∧ byteOf (-128) = 0x80#8 ∧ byteOf (-1) = 0xFF#8 ∧
    byteOf 0 = 0x00#8 ∧ byteOf 127 = 0x7F#8 := by decide

/-- SixteenBitOperandsHighByteFirst: the source's example, both ways round (95 S5). -/
theorem witness_join : AddressingMode.indirect.width = 2 ∧ joinBytes 0x12#8 0x34#8 = 0x1234#16 ∧ joinBytes 0x34#8 0x12#8 = 0x3412#16 ∧
    highByte 0x3412#16 = 0x34#8 ∧ lowByte 0x3412#16 = 0x12#8 := by decide

/-- DefaultTableByMode: bytes with both low bits set, at both ends. -/
theorem witness_low_bits : (0x03#8).toNat % 4 = 3 ∧ (0xFF#8).toNat % 4 = 3 := by decide

/-- RenderingShapes: an instruction whose operand is not Implied, of the shortest text. -/
theorem witness_rendered : (Triple.mk .rol .accumulator 1).operand ≠ .implied ∧
    render (Triple.mk .rol .accumulator 1) = "ROL A".toList := by decide

/-- TextIdentifiesOperandWithinMode: operands in range with one tag and one text; and the spec's own pair of one text and
two tags (R132). -/
theorem witness_texts :
    ((Operand.relative (-1)).wf = true ∧ (Operand.relative (sint8 0xFF#8)).wf = true ∧
      (Operand.relative (-1)).mode = (Operand.relative (sint8 0xFF#8)).mode ∧
      renderOperand (.relative (-1)) = renderOperand (.relative (sint8 0xFF#8))) ∧
    renderOperand (.absoluteX 0x1234#16) = renderOperand (.absolute 0x1234#16) ∧
    (Operand.absoluteX 0x1234#16).mode ≠ (Operand.absolute 0x1234#16).mode := by decide

/-- PortsPackTheDecode, PortsReadBackTheInstruction: each clause's case at the end of its range of `avail`. -/
theorem witness_ports : (PortIn.mk 0xEA#8 0x00#8 0x00#8 0#2).avail = 0#2 ∧
    (PortIn.mk 0xA0#8 0x00#8 0x00#8 1#2).avail.toNat ≤ 1 ∧ (PortIn.mk 0xAD#8 0x00#8 0x00#8 2#2).avail.toNat ≤ 2 ∧
    opcodeTable 0xEA#8 = some (.nop, .implied) ∧ AddressingMode.implied.width = 0 ∧
    opcodeTable 0xA0#8 = some (.ldy, .immediate) ∧ AddressingMode.immediate.width ≤ 1 ∧
    decoded (PortIn.mk 0xF0#8 0xF0#8 0x00#8 2#2).lanes = some ⟨.beq, .relative (-16), 2⟩ ∧
    (ifdOutputs ⟨0xAD#8, 0x12#8, 0x34#8, 2#2⟩).valid = 0#1 ∧ (ifdOutputs ⟨0xAD#8, 0x12#8, 0x34#8, 3#2⟩).valid = 1#1 := by
  decide

/-- The truncation clause of the decode rules: windows one byte short, of each size that can be short; and bytes the
rules name as undefined. -/
theorem witness_rule_short :
    [0xA9#8].head? = some 0xA9#8 ∧ [0xA9#8].length < 2 ∧ [0xAD#8, 0x12#8].head? = some 0xAD#8 ∧
    [0xAD#8, 0x12#8].length < 3 ∧ (0xB2#8 : Byte) ∈ [0xB2#8] := by decide

end Sys2Proof.Tests
end

/-! SUPPORT and PROOFS of the family 00_scope: signed bytes (R10), the hexadecimal text of an operand (R14, R120 to
R131) and the default table against the source (R8, R102). -/

namespace Sys2Proof

/-! ### Signed bytes -/

theorem byteOf_toNat {k : Int} (hlo : -128 ≤ k) (hhi : k ≤ 127) :
    ((byteOf k).toNat : Int) = if 0 ≤ k then k else k + 256 := by
  unfold byteOf
  split <;> rw [BitVec.toNat_ofNat] <;> omega

theorem sint8_byteOf {k : Int} (hlo : -128 ≤ k) (hhi : k ≤ 127) : sint8 (byteOf k) = k := by
  have h := byteOf_toNat hlo hhi
  unfold sint8
  split at h <;> split <;> omega

/-- `byte_of` loses nothing of a payload in range: `sint8` reads it back (R10, R25). -/
theorem byteOf_inj_of_wf {k k' : Int} (h : (Operand.relative k).wf = true) (h' : (Operand.relative k').wf = true) :
    byteOf k = byteOf k' ↔ k = k' := by
  obtain ⟨hlo, hhi⟩ := of_decide_eq_true h
  obtain ⟨hlo', hhi'⟩ := of_decide_eq_true h'
  refine ⟨fun hb => ?_, congrArg byteOf⟩
  rw [← sint8_byteOf hlo hhi, hb, sint8_byteOf hlo' hhi']

/-- Settles O28: each reading undoes the other, on all bytes (`byteOf_sint8`) and on -128..127 (`sint8_byteOf`). -/
theorem signedByteReading : Obligations.SignedByteReading :=
  ⟨fun b => ⟨rfl, (sint8_range b).1, (sint8_range b).2, byteOf_sint8 b⟩,
    fun _ hlo hhi => ⟨sint8_byteOf hlo hhi, byteOf_toNat hlo hhi⟩, rfl⟩

/-! ### Hexadecimal digits -/

theorem hexDigit_inj {m n : Nat} (hm : m < 16) (hn : n < 16) : hexDigit m = hexDigit n ↔ m = n := by
  have hall : ∀ m < 16, ∀ n < 16, hexDigit m = hexDigit n ↔ m = n := by decide
  exact hall m hm n hn

@[simp] theorem hex2_length (b : Byte) : (hex2 b).length = 2 := rfl

@[simp] theorem hex4_length (v : Word) : (hex4 v).length = 4 := rfl

@[simp] theorem hex2_inj {b c : Byte} : hex2 b = hex2 c ↔ b = c := by
  refine ⟨fun h => BitVec.eq_of_toNat_eq ?_, congrArg hex2⟩
  have hb := b.isLt
  have hc := c.isLt
  simp only [hex2, List.cons.injEq, and_true] at h
  rw [hexDigit_inj (by omega) (by omega), hexDigit_inj (by omega) (by omega)] at h
  omega

@[simp] theorem hex4_inj {v w : Word} : hex4 v = hex4 w ↔ v = w := by
  refine ⟨fun h => BitVec.eq_of_toNat_eq ?_, congrArg hex4⟩
  have hv := v.isLt
  have hw := w.isLt
  simp only [hex4, List.cons.injEq, and_true] at h
  rw [hexDigit_inj (by omega) (by omega), hexDigit_inj (by omega) (by omega), hexDigit_inj (by omega) (by omega),
    hexDigit_inj (by omega) (by omega)] at h
  omega

/-! ### The characters of a text -/

/-- An ASCII character above the space (code 32): what mnemonics and operands are written in, so that a space only ever
parts the two (R14, R120). -/
def isGraphic (c : Char) : Bool := decide (32 < c.toNat ∧ c.toNat < 128)

/-- Every character of the text is a graphic one. -/
abbrev Graphic (t : Text) : Prop := t.all isGraphic = true

theorem Graphic.ascii {t : Text} (h : Graphic t) : ∀ c ∈ t, c.toNat < 128 := fun c hc =>
  (of_decide_eq_true (List.all_eq_true.1 h c hc)).2

theorem Graphic.getLast?_ne_space {t : Text} (h : Graphic t) : t.getLast? ≠ some ' ' := fun hlast =>
  absurd (List.all_eq_true.1 h _ (List.mem_of_getLast? hlast)) (by decide)

@[simp] theorem hexDigit_isGraphic (n : Nat) : isGraphic (hexDigit n) = true := by
  rcases Nat.lt_or_ge n 16 with hn | hn
  · revert n
    decide
  · have h0 : hexDigit n = '0' := List.getD_eq_default _ _ hn
    rw [h0]
    decide

theorem hex2_graphic (b : Byte) : Graphic (hex2 b) := by simp [hex2]

theorem hex4_graphic (v : Word) : Graphic (hex4 v) := by simp [hex4]

@[simp] theorem mnemonicText_length (op : Operation) : (mnemonicText op).length = 3 := by cases op <;> rfl

theorem mnemonicText_graphic (op : Operation) : Graphic (mnemonicText op) := by cases op <;> decide

/-- The marks around the digits are graphic as the digits are. -/
theorem renderOperand_graphic (o : Operand) : Graphic (renderOperand o) := by
  cases o <;> simp only [renderOperand, Graphic, List.all_cons, List.all_append, hex2_graphic, hex4_graphic] <;> decide

theorem renderOperand_ne_nil {o : Operand} (h : o ≠ .implied) : renderOperand o ≠ [] := by
  cases o <;> simp_all [renderOperand]

/-! ### The text of an instruction -/

theorem render_of_implied {i : Triple} (h : i.operand = .implied) : render i = mnemonicText i.operation := by
  simp only [render, h]

theorem render_of_ne_implied {i : Triple} (h : i.operand ≠ .implied) :
    render i = mnemonicText i.operation ++ [' '] ++ renderOperand i.operand := by
  unfold render
  split
  · contradiction
  · rfl

theorem render_ascii (i : Triple) : ∀ c ∈ render i, c.toNat < 128 := by
  by_cases h : i.operand = .implied
  · rw [render_of_implied h]
    exact (mnemonicText_graphic _).ascii
  · rw [render_of_ne_implied h, List.forall_mem_append, List.forall_mem_append]
    exact ⟨⟨(mnemonicText_graphic _).ascii, by simp⟩, (renderOperand_graphic _).ascii⟩

/-- A text ends with its mnemonic's last letter or, after the space, with its operand's last character, of which there is
one: neither is a space. -/
theorem render_getLast?_ne_space (i : Triple) : (render i).getLast? ≠ some ' ' := by
  by_cases h : i.operand = .implied
  · rw [render_of_implied h]
    exact (mnemonicText_graphic _).getLast?_ne_space
  · rw [render_of_ne_implied h, List.getLast?_append_of_ne_nil _ (renderOperand_ne_nil h)]
    exact (renderOperand_graphic _).getLast?_ne_space

/-- Settles O36: the length is the mnemonic's three letters, the space and the operand's characters, shape by shape. -/
theorem renderedTextIsShortAscii : Obligations.RenderedTextIsShortAscii := by
  intro i
  refine ⟨?_, render_ascii i, render_getLast?_ne_space i⟩
  obtain ⟨op, o, n⟩ := i
  cases o <;> simp [render, renderOperand]

/-- Settles O37: in each mode the same characters stand around the digits, and the digits determine the payload. -/
theorem textIdentifiesOperandWithinMode : Obligations.TextIdentifiesOperandWithinMode := by
  intro o o' hwf hwf' hmode htext
  cases o <;> cases o' <;> cases hmode
  case relative.relative k k' =>
    have hbyte : byteOf k = byteOf k' := by simpa [renderOperand] using htext
    rw [(byteOf_inj_of_wf hwf hwf').1 hbyte]
  case accumulator.accumulator | implied.implied => rfl
  all_goals simpa [renderOperand] using htext

/-! ### The default table -/

theorem validTable_opcodeTable : ValidTable opcodeTable :=
  ⟨⟨.ldy, rfl, rfl⟩, ⟨0x02#8, rfl⟩, ⟨0x10#8, .bpl, rfl⟩, ⟨0x0D#8, .ora, .absolute, rfl, .inl rfl⟩⟩

/-- Settles O29: by reading the 256 slots. -/
theorem defaultTableMeetsTheSource : Obligations.DefaultTableMeetsTheSource :=
  ⟨validTable_opcodeTable, rfl, rfl, by decide, by decide, ⟨0x02#8, rfl⟩⟩

end Sys2Proof

/-! SUPPORT and PROOFS of the family 10_state: the step and the invariants of a walk (R36 to R43, R161 to R163), what a
decode keeps of its window (R26, R66, R155), and the ports (R23, R24, R33 to R35). -/

namespace Sys2Proof

open Machine

/-! ### The step of a ready state -/

theorem step_of_exhausted {s : State} (hr : Ready s) (hx : s.len ≤ s.off) :
    step s = .next (stop .stoppedExhausted s) := by
  rcases step_of_ready hr.1 hr.2 with ⟨_, hs⟩ | ⟨hlt, _⟩ | ⟨_, hlt, _⟩
  · exact hs
  · omega
  · omega

theorem step_of_absent {s : State} (hr : Ready s) (hlt : s.off < s.len) (hd : decode (window s) = none) :
    step s = .next (stop .stoppedAbsent s) := by
  rcases step_of_ready hr.1 hr.2 with ⟨hx, _⟩ | ⟨_, _, hs⟩ | ⟨i, _, hi, _⟩
  · omega
  · exact hs
  · rw [decodeInstr_ok hi] at hd
    cases hd

/-- What decodes at `off` ends within the buffer. -/
theorem decode_window_end {s : State} {i : Instruction} (hd : decode (window s) = some i) :
    s.off + i.size ≤ s.len := by
  have hsize := decodeWith_size hd
  rw [window_length] at hsize
  omega

theorem step_of_decode {s : State} {i : Instruction} (hr : Ready s) (hd : decode (window s) = some i) :
    step s = .next (emit i s) := by
  have hend := decode_window_end hd
  have hpos := i.size_range.1
  rcases step_of_ready hr.1 hr.2 with ⟨hx, _⟩ | ⟨_, hn, _⟩ | ⟨j, _, hj, hs⟩
  · omega
  · rw [hn] at hd
    cases hd
  · rw [decodeInstr_ok hj] at hd
    rw [hs, Option.some.inj hd]

/-! ### The bounds of a walk (R40) -/

theorem WalkBounds.emit {s : State} {i : Instruction} (h : WalkBounds s) (hend : s.off + i.size ≤ s.len) :
    WalkBounds (emit i s) :=
  ⟨hend, List.forall_mem_append.2 ⟨h.2, List.forall_mem_singleton.2 hend⟩⟩

/-- Settles O13: a stop moves nothing, and what a step records ends within the buffer, as its decode does. -/
theorem walkBoundsAreKept : Obligations.WalkBoundsAreKept := by
  refine ⟨fun s => ⟨Nat.zero_le _, by simp⟩, fun s t hb h => ?_⟩
  rcases step_cases h with ⟨_, rfl⟩ | ⟨_, _, rfl⟩ | ⟨i, _, hi, rfl⟩
  · exact hb
  · exact hb
  · exact hb.emit (decode_window_end (decodeInstr_ok hi))

/-! ### The whole invariant of a walk -/

/-- A decode's triple meets both invariants of R26 and the range of R25. -/
theorem tableMade_of_decode {T : OpcodeTable} {w : List Byte} {i : InstructionOf T} (h : decodeWith T w = some i) :
    TableMade T i.toTriple := by
  obtain ⟨b, rest, op, m, _, _, _, hi⟩ := decodeWith_some h
  refine ⟨?_, i.tagIsEntrys⟩
  rw [hi, Triple.wf, extract_wf, payloadBytes_eq_width, extract_mode]
  simp [AddressingMode.size]

/-- A pair that starts where a gapless sweep ends continues it. -/
theorem Contiguous.snoc {i : Instruction} {b : Nat} : ∀ {a : Nat} {l : List (Nat × Instruction)},
    Contiguous a l b → Contiguous a (l ++ [(b, i)]) (b + i.size)
  | _, [], h => ⟨h.symm, congrArg (· + i.size) h⟩
  | _, _ :: _, ⟨hk, hrest⟩ => ⟨hk, hrest.snoc⟩

theorem WalkInvariant.stop {s : State} {st : Status} (h : WalkInvariant s)
    (ht : statusTruthful opcodeTable (stop st s) = true) : WalkInvariant (stop st s) where
  canonical := h.canonical
  within := h.within
  fits := h.fits
  offWithin := h.offWithin
  gapless := h.gapless
  decoded := h.decoded
  truthful := ht

theorem WalkInvariant.emit {s : State} {i : Instruction} (h : WalkInvariant s) (hr : s.status = .running)
    (hd : decode (window s) = some i) : WalkInvariant (emit i s) where
  canonical := h.canonical
  within := h.within
  fits := h.fits
  offWithin := decode_window_end hd
  gapless := h.gapless.snoc
  decoded := List.forall_mem_append.2 ⟨h.decoded, List.forall_mem_singleton.2 ⟨hd, tableMade_of_decode hd⟩⟩
  truthful := by simp [statusTruthful, hr]

/-- Settles O15: each of the three things a step can do keeps the invariant. -/
theorem stepKeepsWalkInvariant : Obligations.StepKeepsWalkInvariant := by
  intro s t hw h
  rcases step_cases h with ⟨hx, rfl⟩ | ⟨hlt, hd, rfl⟩ | ⟨i, _, hi, rfl⟩
  · have hoff : s.off = s.len := Nat.le_antisymm hw.offWithin hx
    exact hw.stop (decide_eq_true hoff)
  · exact hw.stop (Bool.and_eq_true_iff.2 ⟨decide_eq_true hlt, decide_eq_true hd⟩)
  · exact hw.emit (ready_of_step h).1 (decodeInstr_ok hi)

/-- Bytes placed inside the buffer keep every cell inside it. -/
theorem memWithin_writeBytes {len : Nat} : ∀ (bs : List Byte) (m : Mem) (a : Nat), a + bs.length ≤ len →
    memWithin m len = true → memWithin (writeBytes m a bs) len = true
  | [], _, _, _, h => h
  | b :: rest, m, a, hle, h => by
    rw [List.length_cons] at hle
    exact memWithin_writeBytes rest _ _ (by omega) (memWithin_writeMem m a b len (by omega) h)

theorem walkInvariant_hostLoad {bs : List Byte} {s : State} (h : bs.length ≤ 2 ^ s.offw - 1) :
    WalkInvariant (hostLoad bs s) where
  canonical := memWf_writeBytes bs [] 0 rfl
  within := memWithin_writeBytes bs [] 0 (Nat.zero_add _).le rfl
  fits := h
  offWithin := Nat.zero_le _
  gapless := rfl
  decoded := by simp
  truthful := rfl

/-- Settles O14: a walk starts with an empty trace at offset 0, and reset is the load of the empty buffer. -/
theorem walkInvariantHoldsAtReset : Obligations.WalkInvariantHoldsAtReset :=
  ⟨walkInvariant_hostLoad (bs := []) (s := State.reset) (Nat.zero_le _), fun _ _ => walkInvariant_hostLoad⟩

/-! ### A walk of a suffix (R43) -/

theorem bytesFrom_congr {m m' : Mem} {a a' n : Nat} (h : ∀ k < n, readMem m (a + k) = readMem m' (a' + k)) :
    bytesFrom m a n = bytesFrom m' a' n := by
  refine List.ext_getElem (by simp) fun k hk hk' => ?_
  rw [bytesFrom_getElem, bytesFrom_getElem]
  exact h k (by simpa using hk)

section Shifted

variable {a : Nat} {before : List (Nat × Instruction)} {s u : State}

/-- The two walks look at the same window. -/
theorem ShiftedBy.window_eq (h : ShiftedBy a before s u) : window s = window u := by
  obtain ⟨hlen, hoff, _, hmem, _⟩ := h
  have hn : s.len - s.off = u.len - u.off := by omega
  unfold window suffixAt
  rw [hn]
  refine bytesFrom_congr fun k hk => ?_
  rw [hoff, Nat.add_assoc]
  exact hmem (u.off + k) (by omega)

theorem ShiftedBy.stop (h : ShiftedBy a before s u) (st : Status) :
    ShiftedBy a before (stop st s) (stop st u) := by
  obtain ⟨hlen, hoff, _, hmem, htrace⟩ := h
  exact ⟨hlen, hoff, rfl, hmem, htrace⟩

theorem ShiftedBy.emit (h : ShiftedBy a before s u) (i : Instruction) :
    ShiftedBy a before (emit i s) (emit i u) := by
  obtain ⟨hlen, hoff, hst, hmem, htrace⟩ := h
  exact ⟨hlen, by simp [hoff, Nat.add_assoc], hst, hmem, by simp [htrace, hoff]⟩

end Shifted

/-- Settles O3: the two steps decode one window, so both stop alike or record one instruction, `a` apart. -/
theorem walkFromAnotherOffset : Obligations.WalkFromAnotherOffset := by
  intro a before s u hs hu h
  have ⟨hlen, hoff, _⟩ := h
  rcases Nat.lt_or_ge u.off u.len with hlt | hx
  · cases hd : decode (window u) with
    | none =>
      exact ⟨_, _, step_of_absent hs (by omega) (h.window_eq ▸ hd), step_of_absent hu hlt hd, h.stop _⟩
    | some i => exact ⟨_, _, step_of_decode hs (h.window_eq ▸ hd), step_of_decode hu hd, h.emit i⟩
  · exact ⟨_, _, step_of_exhausted hs (by omega), step_of_exhausted hu hx, h.stop _⟩

/-! ### The first three bytes of a window (R66) -/

theorem extract_take_three (m : AddressingMode) (w : List Byte) : extract m (w.take 3) = extract m w := by
  have h1 : byteAt (w.take 3) 1 = byteAt w 1 := by simp [byteAt]
  have h2 : byteAt (w.take 3) 2 = byteAt w 2 := by simp [byteAt]
  cases m <;> simp only [extract, h1, h2]

/-- A mode's size is at most 3, so three bytes decide every decode. -/
theorem decodeWith_take_three (T : OpcodeTable) (w : List Byte) : decodeWith T (w.take 3) = decodeWith T w := by
  cases w with
  | nil => rfl
  | cons b rest =>
    have hex := extract_take_three (w := b :: rest)
    rw [List.take_succ_cons] at hex ⊢
    cases hT : T b with
    | none => rw [decodeWith_of_unmapped hT, decodeWith_of_unmapped hT]
    | some e =>
      obtain ⟨op, m⟩ := e
      have hsize := size_le_three m
      rcases Nat.lt_or_ge (b :: rest).length m.size with hlt | hge
      · have hlt' : (b :: rest.take 2).length < m.size := by
          simp only [List.length_cons, List.length_take] at hlt ⊢
          omega
        rw [decodeWith_of_short hT hlt, decodeWith_of_short hT hlt']
      · have hge' : m.size ≤ (b :: rest.take 2).length := by
          simp only [List.length_cons, List.length_take] at hge ⊢
          omega
        obtain ⟨i, _, hi, htri⟩ := decodeWith_of_entry hT hge
        obtain ⟨j, _, hj, htrj⟩ := decodeWith_of_entry hT hge'
        rw [hi, hj, InstructionOf.eq_of_triple (htrj.trans ((hex m).symm ▸ htri.symm))]

/-- Settles O11: windows that agree in three bytes have one decode, which is all that a step before the end asks. -/
theorem stepDependsOnThreeBytes : Obligations.StepDependsOnThreeBytes := by
  intro s u hs hu hslt hult h
  have hw : decode (window s) = decode (window u) :=
    (decodeWith_take_three opcodeTable (window s)).symm.trans (h ▸ decodeWith_take_three opcodeTable (window u))
  cases hd : decode (window u) with
  | none => exact .inl ⟨step_of_absent hs hslt (hw.trans hd), step_of_absent hu hult hd⟩
  | some i => exact .inr ⟨i, step_of_decode hs (hw.trans hd), step_of_decode hu hd⟩

/-! ### What instructions and steps leave unchanged (R38, R54) -/

theorem sameBuffer_emit (i : Instruction) (s : State) : SameBuffer s (emit i s) := ⟨rfl, rfl, rfl, fun _ => rfl⟩

theorem sameBuffer_stop (st : Status) (s : State) : SameBuffer s (stop st s) := ⟨rfl, rfl, rfl, fun _ => rfl⟩

/-- Settles O12: every arm of `exec` is one `emit`, and a step is that or a stop. -/
theorem instructionsAndStepsLeaveTheRest : Obligations.InstructionsAndStepsLeaveTheRest := by
  refine ⟨fun i s t h => ?_, fun s t h => ?_⟩
  · rw [exec_eq_emit] at h
    cases h
    exact ⟨sameBuffer_emit _ s, rfl, rfl, rfl⟩
  · rcases step_cases h with ⟨_, rfl⟩ | ⟨_, _, rfl⟩ | ⟨i, _, _, rfl⟩
    · exact ⟨sameBuffer_stop _ s, Nat.le_refl _, Nat.le_add_right _ _, .inl ⟨rfl, rfl, by simp⟩⟩
    · exact ⟨sameBuffer_stop _ s, Nat.le_refl _, Nat.le_add_right _ _, .inl ⟨rfl, rfl, by simp⟩⟩
    · have hsize := i.instruction.size_range.2
      exact ⟨sameBuffer_emit _ s, Nat.le_add_right _ _, Nat.add_le_add_left hsize _,
        .inr ⟨i.instruction, rfl, rfl, (ready_of_step h).1⟩⟩

/-! ### Encode of decode (R90, R155) -/

theorem highByte_joinBytes (h l : Byte) : highByte (joinBytes h l) = h := by
  refine BitVec.eq_of_toNat_eq ?_
  have hh := h.isLt
  have hl := l.isLt
  rw [highByte, BitVec.toNat_setWidth, BitVec.toNat_ushiftRight, joinBytes_toNat, Nat.shiftRight_eq_div_pow]
  omega

theorem lowByte_joinBytes (h l : Byte) : lowByte (joinBytes h l) = l := by
  refine BitVec.eq_of_toNat_eq ?_
  have hl := l.isLt
  rw [lowByte, BitVec.toNat_setWidth, joinBytes_toNat]
  omega

/-- The operand bytes rebuilt from what EXTRACT made are the bytes it read. -/
theorem extract_bytes (m : AddressingMode) (w : List Byte) :
    (extract m w).bytes = [byteAt w 1, byteAt w 2].take m.width := by
  cases m <;>
    simp [extract, Operand.bytes, AddressingMode.width, highByte_joinBytes, lowByte_joinBytes, byteOf_sint8]

theorem width_le_two (m : AddressingMode) : m.width ≤ 2 := by cases m <;> decide

theorem take_byteAt {b : Byte} {rest : List Byte} {n : Nat} (hn : n ≤ 2) (hl : n ≤ rest.length) :
    [byteAt (b :: rest) 1, byteAt (b :: rest) 2].take n = rest.take n := by
  refine List.ext_getElem (by simp only [List.length_take, List.length_cons, List.length_nil]; omega)
    fun k hk _ => ?_
  have hkn : k < n := hk.trans_le (List.length_take_le n _)
  have hk' : k = 0 ∨ k = 1 := by omega
  rcases hk' with rfl | rfl
  all_goals simp [byteAt, List.getElem?_eq_getElem (hkn.trans_le hl)]

/-- The range of a branch offset is the only check of an instruction, as it is of its operand. -/
theorem instr_wf_eq_operand_wf (i : Instr) : i.wf = i.triple.operand.wf := by cases i <;> rfl

/-- Settles O32: no two bytes hold one entry, so the opcode is the window's first byte, and the operand's bytes are the
next ones. -/
theorem encodeOfDecode : Obligations.EncodeOfDecode := by
  intro w i h
  have hd := decodeInstr_ok h
  obtain ⟨b, rest, op, m, rfl, hT, hl, hi⟩ := decodeWith_some hd
  have htri : i.triple = ⟨op, extract m (b :: rest), m.size⟩ := hi
  have hop : i.opcode = b := opcodeTable_injective i.triple_entry (by rw [htri, extract_mode, hT])
  have hw := width_le_two m
  have hlen : m.width ≤ rest.length := by
    rw [AddressingMode.size, List.length_cons] at hl
    omega
  refine ⟨by rw [instr_wf_eq_operand_wf, htri, extract_wf], ?_, hd, (tableMade_of_decode hd).1⟩
  calc encode i = b :: (extract m (b :: rest)).bytes := by rw [encode, hop, htri]
    _ = b :: rest.take m.width := by rw [extract_bytes, take_byteAt hw hlen]
    _ = (b :: rest).take i.instruction.size := by
      rw [hi, AddressingMode.size, Nat.add_comm, List.take_succ_cons]

/-! ### The ids at the ports (R23, R24) -/

theorem Operation.id_lt (op : Operation) : op.id < 56 := by cases op <;> decide

@[simp] theorem Operation.ofId_id (op : Operation) : Operation.ofId op.id = some op := by cases op <;> rfl

theorem AddressingMode.id_lt (m : AddressingMode) : m.id < 13 := by cases m <;> decide

@[simp] theorem AddressingMode.ofId_id (m : AddressingMode) : AddressingMode.ofId m.id = some m := by cases m <;> rfl

/-- What texts are ordered by: the character codes of the mnemonic. -/
def textKey (op : Operation) : List Nat := (mnemonicText op).map Char.toNat

/-- Each text comes before the next, and so before all that follow. -/
theorem textKeys_sorted : (allOperations.map textKey).Pairwise (· < ·) :=
  List.isChain_iff_pairwise.1 (by decide)

theorem textKey_getElem? (op : Operation) : (allOperations.map textKey)[op.id]? = some (textKey op) := by
  rw [List.getElem?_map, show allOperations[op.id]? = some op from Operation.ofId_id op]
  rfl

theorem textKey_lt_of_id_lt {op op' : Operation} (h : op.id < op'.id) : textKey op < textKey op' := by
  obtain ⟨hi, hop⟩ := List.getElem?_eq_some_iff.1 (textKey_getElem? op)
  obtain ⟨hj, hop'⟩ := List.getElem?_eq_some_iff.1 (textKey_getElem? op')
  rw [← hop, ← hop']
  exact List.pairwise_iff_getElem.1 textKeys_sorted _ _ hi hj h

theorem id_lt_iff_textKey_lt (op op' : Operation) : op.id < op'.id ↔ textKey op < textKey op' := by
  refine ⟨textKey_lt_of_id_lt, fun hk => ?_⟩
  rcases Nat.lt_trichotomy op.id op'.id with hlt | heq | hgt
  · exact hlt
  · have hsame : op = op' := Option.some.inj (by rw [← Operation.ofId_id op, heq, Operation.ofId_id])
    exact absurd (hsame ▸ hk) (lt_irrefl _)
  · exact absurd (textKey_lt_of_id_lt hgt) (lt_asymm hk)

/-- Settles O40: by the two lists of values, the texts of the first sorted. -/
theorem portIdsNameTheirValues : Obligations.PortIdsNameTheirValues :=
  ⟨fun op => ⟨op.id_lt, op.ofId_id⟩, fun m => ⟨m.id_lt, m.ofId_id⟩, id_lt_iff_textKey_lt, rfl, rfl, rfl⟩

/-! ### The ports (R33 to R35) -/

/-- Zero extension keeps a byte's number. -/
theorem toNat_setWidth_byte (b : Byte) : (b.setWidth 16).toNat = b.toNat := BitVec.toNat_setWidth_of_le (by decide)

@[simp] theorem lowByte_setWidth (b : Byte) : lowByte (b.setWidth 16) = b := by
  refine BitVec.eq_of_toNat_eq ?_
  have hb := b.isLt
  rw [lowByte, BitVec.toNat_setWidth, toNat_setWidth_byte]
  omega

/-- An operand in range is read back from its mode and its `opnd` value. -/
theorem ofPort_portPayload {o : Operand} (h : o.wf = true) : Operand.ofPort o.mode o.portPayload = o := by
  cases o with
  | relative k =>
    obtain ⟨hlo, hhi⟩ := of_decide_eq_true h
    simp [Operand.mode, Operand.portPayload, Operand.ofPort, sint8_byteOf hlo hhi]
  | _ => simp [Operand.mode, Operand.portPayload, Operand.ofPort]

theorem operand_wf_of_decode {T : OpcodeTable} {w : List Byte} {i : InstructionOf T} (h : decodeWith T w = some i) :
    i.operand.wf = true :=
  (Bool.and_eq_true_iff.1 (tableMade_of_decode h).1).1

section Packed

variable {T : OpcodeTable} (i : InstructionOf T)

theorem packPorts_op_toNat : (packPorts (some i)).op.toNat = i.operation.id := by
  have hid := i.operation.id_lt
  exact Nat.mod_eq_of_lt (by omega)

theorem packPorts_mode_toNat : (packPorts (some i)).mode.toNat = i.operand.mode.id := by
  have hid := i.operand.mode.id_lt
  exact Nat.mod_eq_of_lt (by omega)

theorem packPorts_size_toNat : (packPorts (some i)).size.toNat = i.size := by
  have hsize := i.size_range.2
  exact Nat.mod_eq_of_lt (by omega)

theorem packPorts_size_ne_zero : (packPorts (some i)).size ≠ 0#2 := by
  intro h
  have hsize := packPorts_size_toNat i
  rw [h] at hsize
  exact absurd i.size_range.1 (by rw [← hsize]; decide)

/-- The host reads back the three components (R35). -/
theorem read_packPorts (h : i.operand.wf = true) : (packPorts (some i)).read = some i.toTriple := by
  have hop : (packPorts (some i)).operation = some i.operation := by
    rw [PortOut.operation, packPorts_op_toNat, Operation.ofId_id]
  have hoperand : (packPorts (some i)).operand = some i.operand := by
    simp only [PortOut.operand, packPorts_mode_toNat, AddressingMode.ofId_id]
    exact congrArg some (ofPort_portPayload h)
  have hvalid : (packPorts (some i)).valid = 1#1 := rfl
  simp only [PortOut.read, hvalid, if_true, hop, hoperand, packPorts_size_toNat]

end Packed

/-- Settles O39: the ports pack the decode, and each id, payload and size fits its port. -/
theorem portsReadBackTheInstruction : Obligations.PortsReadBackTheInstruction := by
  refine ⟨fun T p h => ?_, fun T p i hd => ?_, fun T p => ?_, fun T p => ?_⟩
  · unfold ifdOutputsWith at h ⊢
    cases hd : decodeWith T p.lanes with
    | none => rfl
    | some i =>
      rw [hd] at h
      exact absurd h (by simp [packPorts])
  · have hwf := operand_wf_of_decode hd
    have hout : ifdOutputsWith T p = packPorts (some i) := congrArg packPorts hd
    have hopnd : (packPorts (some i)).opnd = i.operand.portPayload := rfl
    rw [hout, hopnd]
    refine ⟨rfl, packPorts_op_toNat i, packPorts_mode_toNat i, packPorts_size_toNat i, ?_⟩
    generalize i.operand = o at hwf ⊢
    cases o with
    | relative k =>
      obtain ⟨hlo, hhi⟩ := of_decide_eq_true hwf
      exact ⟨toNat_setWidth_byte _, by rw [Operand.portPayload, lowByte_setWidth, sint8_byteOf hlo hhi]⟩
    | absolute _ | absoluteX _ | absoluteY _ | indirect _ | accumulator | implied => rfl
    | immediate v | indexedIndirect v | indirectIndexed v | zeroPage v | zeroPageX v | zeroPageY v =>
      exact toNat_setWidth_byte v
  · unfold ifdOutputsWith
    cases hd : decodeWith T p.lanes with
    | none => rfl
    | some i => exact read_packPorts i (operand_wf_of_decode hd)
  · unfold ifdOutputsWith
    cases decodeWith T p.lanes with
    | none => simp [packPorts]
    | some i => exact iff_of_true rfl (packPorts_size_ne_zero i)

end Sys2Proof

/-! SUPPORT and PROOFS of the family 20_memory: the window indices a decode reads, and that its result depends on nothing
else but the window's length (R61). -/

namespace Sys2Proof

/-! ### The indices a decode reads -/

theorem readsWith_of_none {T : OpcodeTable} {b : Byte} {rest : List Byte} (hd : decodeWith T (b :: rest) = none) :
    readsWith T (b :: rest) = [0] := by
  cases hc : classifyWith T (b :: rest) with
  | error e => simp only [readsWith, hc]
  | ok i => simp [decodeWith, hc] at hd

theorem readsWith_of_some {T : OpcodeTable} {w : List Byte} {i : InstructionOf T} (hd : decodeWith T w = some i) :
    readsWith T w = List.range i.size := by
  obtain ⟨b, rest, op, m, rfl, hT, hl, _⟩ := decodeWith_some hd
  obtain ⟨j, hc, hj, _⟩ := decodeWith_of_entry hT hl
  cases hd.symm.trans hj
  simp only [readsWith, hc]

/-- Every decode of a nonempty window reads the opcode. -/
theorem zero_mem_readsWith (T : OpcodeTable) (b : Byte) (rest : List Byte) : 0 ∈ readsWith T (b :: rest) := by
  cases hd : decodeWith T (b :: rest) with
  | none => simp [readsWith_of_none hd]
  | some i => exact readsWith_of_some hd ▸ List.mem_range.2 i.size_range.1

/-! ### What is read decides the decode -/

theorem byteAt_congr {w w' : List Byte} {k : Nat} (h : w[k]? = w'[k]?) : byteAt w k = byteAt w' k := by
  simp only [byteAt, List.getD_eq_getElem?_getD, h]

/-- EXTRACT reads no byte at its mode's size or beyond. -/
theorem extract_congr {m : AddressingMode} {w w' : List Byte} (h : ∀ k < m.size, w[k]? = w'[k]?) :
    extract m w = extract m w' := by
  cases m with
  | accumulator | implied => rfl
  | immediate | indexedIndirect | indirectIndexed | relative | zeroPage | zeroPageX | zeroPageY =>
    simp only [extract, byteAt_congr (h 1 (by decide))]
  | absolute | absoluteX | absoluteY | indirect =>
    simp only [extract, byteAt_congr (h 1 (by decide)), byteAt_congr (h 2 (by decide))]

/-- With one opcode byte and one length, LOOKUP and BOUNDS agree; the bytes EXTRACT reads are among those compared. -/
theorem decodeWith_congr {T : OpcodeTable} {b : Byte} {rest rest' : List Byte}
    (hlen : (b :: rest).length = (b :: rest').length)
    (h : ∀ k ∈ readsWith T (b :: rest), (b :: rest)[k]? = (b :: rest')[k]?) :
    decodeWith T (b :: rest) = decodeWith T (b :: rest') := by
  cases hT : T b with
  | none => rw [decodeWith_of_unmapped hT, decodeWith_of_unmapped hT]
  | some e =>
    obtain ⟨op, m⟩ := e
    rcases Nat.lt_or_ge (b :: rest).length m.size with hlt | hge
    · rw [decodeWith_of_short hT hlt, decodeWith_of_short hT (hlen ▸ hlt)]
    · obtain ⟨i, _, hi, htri⟩ := decodeWith_of_entry hT hge
      obtain ⟨j, _, hj, htrj⟩ := decodeWith_of_entry hT (hlen ▸ hge)
      have hsize : i.size = m.size := congrArg Triple.size htri
      rw [readsWith_of_some hi, hsize] at h
      have hex : extract m (b :: rest) = extract m (b :: rest') :=
        extract_congr fun k hk => h k (List.mem_range.2 hk)
      rw [hi, hj, InstructionOf.eq_of_triple (htri.trans (hex ▸ htrj.symm))]

/-- Settles O25: the opcode is always among the bytes read, so windows that agree there have one slot. -/
theorem decodeReadsOnlyTheInstruction : Obligations.DecodeReadsOnlyTheInstruction := by
  refine ⟨fun T b rest => ⟨readsWith_of_none, fun _ => readsWith_of_some⟩, fun _ => rfl, fun T w w' hlen h => ?_⟩
  cases w with
  | nil => rw [List.eq_nil_of_length_eq_zero hlen.symm]
  | cons b rest =>
    cases w' with
    | nil => cases hlen
    | cons b' rest' =>
      have hb : b = b' := by simpa using h 0 (zero_mem_readsWith T b rest)
      subst hb
      exact decodeWith_congr hlen h

end Sys2Proof

/-! SUPPORT and PROOFS of the family 30_encoding: the operand-width router and operand assembly (R84 to R90), the default
table by mode and its undefined bytes (R91, R101, R103), decode of encode (R155) and the formatter's shapes (R120 to
R132). -/

namespace Sys2Proof

/-! ### 16-bit operands (R56, R86) -/

theorem highByte_toNat (v : Word) : (highByte v).toNat = v.toNat / 256 := by
  have hv := v.isLt
  rw [highByte, BitVec.toNat_setWidth, BitVec.toNat_ushiftRight, Nat.shiftRight_eq_div_pow]
  omega

theorem lowByte_toNat (v : Word) : (lowByte v).toNat = v.toNat % 256 := BitVec.toNat_setWidth 8 v

/-- A word is its two bytes joined again. -/
theorem joinBytes_highByte_lowByte (v : Word) : joinBytes (highByte v) (lowByte v) = v := by
  refine BitVec.eq_of_toNat_eq ?_
  rw [joinBytes_toNat, highByte_toNat, lowByte_toNat]
  exact Nat.div_add_mod v.toNat 256

/-- Shift and or, as the model joins two bytes, give the sum of R9. -/
theorem joinBytes_eq_bothBytes (h l : Byte) : joinBytes h l = bothBytes h l := by
  refine BitVec.eq_of_toNat_eq ?_
  have hh := h.isLt
  have hl := l.isLt
  rw [joinBytes_toNat, bothBytes, BitVec.toNat_ofNat]
  omega

/-! ### Decode of encode (R90, R155) -/

/-- EXTRACT reads an operand in range back from its bytes, whatever follows them. -/
theorem extract_operand_bytes {o : Operand} (h : o.wf = true) (b : Byte) (rest : List Byte) :
    extract o.mode (b :: (o.bytes ++ rest)) = o := by
  cases o with
  | absolute v => exact congrArg Operand.absolute (joinBytes_highByte_lowByte v)
  | absoluteX v => exact congrArg Operand.absoluteX (joinBytes_highByte_lowByte v)
  | absoluteY v => exact congrArg Operand.absoluteY (joinBytes_highByte_lowByte v)
  | indirect v => exact congrArg Operand.indirect (joinBytes_highByte_lowByte v)
  | relative k =>
    obtain ⟨hlo, hhi⟩ := of_decide_eq_true h
    exact congrArg Operand.relative (sint8_byteOf hlo hhi)
  | accumulator | implied => rfl
  | immediate | indexedIndirect | indirectIndexed | zeroPage | zeroPageX | zeroPageY => rfl

/-- An encoding, and so all that starts with it, has the bytes its mode needs. -/
theorem size_le_encode_append (i : Instr) (rest : List Byte) :
    i.triple.operand.mode.size ≤ (i.opcode :: (i.triple.operand.bytes ++ rest)).length := by
  rw [AddressingMode.size, List.length_cons, List.length_append, operand_bytes_length]
  omega

theorem decode_encode_append {i : Instr} (h : i.wf = true) (rest : List Byte) :
    decode (encode i ++ rest) = some i.instruction := by
  obtain ⟨x, _, hx, htri⟩ := decodeWith_of_entry i.triple_entry (size_le_encode_append i rest)
  rw [extract_operand_bytes (operand_wf h), ← i.triple_size] at htri
  exact hx.trans (congrArg some (InstructionOf.eq_of_triple htri))

/-- Settles O31: the opcode's slot holds the instruction's own pair, EXTRACT undoes the operand's bytes, and the triple so
decoded is that of no other instruction. -/
theorem decodeOfEncode : Obligations.DecodeOfEncode := by
  intro i rest h
  obtain ⟨j, hj, hji⟩ := decodeInstr_of_some (decode_encode_append h rest)
  have htri : j.triple = i.triple := congrArg InstructionOf.toTriple hji
  rw [hj, triple_injective htri]

/-! ### The operand-width router (R84) -/

theorem width_eq_two_iff (m : AddressingMode) :
    m.width = 2 ↔ m = .absolute ∨ m = .absoluteX ∨ m = .absoluteY ∨ m = .indirect := by cases m <;> decide

theorem width_eq_zero_iff (m : AddressingMode) : m.width = 0 ↔ m = .accumulator ∨ m = .implied := by
  cases m <;> decide

/-- EXTRACT gives the operand of the formulas of R9, R10 and R25. -/
theorem extract_eq_rowOperand (m : AddressingMode) (w : List Byte) :
    extract m w = rowOperand m (byteAt w 1) (byteAt w 2) := by
  cases m with
  | absolute | absoluteX | absoluteY | indirect => simp only [extract, rowOperand, joinBytes_eq_bothBytes]
  | relative => simp only [extract, rowOperand, sint8_eq_toInt]
  | accumulator | implied => rfl
  | immediate | indexedIndirect | indirectIndexed | zeroPage | zeroPageX | zeroPageY => rfl

/-- Settles O26: mode by mode for the widths; the operand's payload is as wide as the mode of its tag. -/
theorem operandWidthRouter : Obligations.OperandWidthRouter :=
  ⟨fun m => ⟨rfl, width_eq_two_iff m, width_eq_zero_iff m, width_le_two m⟩, fun m w =>
    ⟨extract_mode m w, by rw [payloadBytes_eq_width, extract_mode], extract_eq_rowOperand m w⟩⟩

/-- Settles O27: each mode of width 2 joins its two bytes, and joining and taking apart undo each other. -/
theorem sixteenBitOperandsHighByteFirst : Obligations.SixteenBitOperandsHighByteFirst := by
  refine ⟨fun m w hm => ⟨joinBytes (byteAt w 1) (byteAt w 2), ?_, joinBytes_toNat _ _, highByte_joinBytes _ _,
    lowByte_joinBytes _ _⟩, fun h l => ⟨joinBytes_toNat h l, highByte_joinBytes h l, lowByte_joinBytes h l,
    joinBytes_highByte_lowByte⟩⟩
  rcases (width_eq_two_iff m).1 hm with rfl | rfl | rfl | rfl
  · exact .inl ⟨rfl, rfl⟩
  · exact .inr (.inl ⟨rfl, rfl⟩)
  · exact .inr (.inr (.inl ⟨rfl, rfl⟩))
  · exact .inr (.inr (.inr ⟨rfl, rfl⟩))

/-! ### The default table read slot by slot (R91, R101, R103) -/

theorem mem_allBytes (b : Byte) : b ∈ allBytes :=
  List.mem_map.2 ⟨b.toNat, List.mem_range.2 b.isLt, BitVec.ofNat_toNat 8 b⟩

theorem allBytes_nodup : allBytes.Nodup := by
  refine List.Nodup.map_on (fun x hx y hy h => ?_) List.nodup_range
  have hxy := congrArg BitVec.toNat h
  rwa [BitVec.toNat_ofNat, BitVec.toNat_ofNat, Nat.mod_eq_of_lt (List.mem_range.1 hx),
    Nat.mod_eq_of_lt (List.mem_range.1 hy)] at hxy

/-- The set `U` as R91 lists it is the list of the empty slots. -/
theorem undefinedOpcodes_eq_filter : undefinedOpcodes = allBytes.filter fun b => (opcodeTable b).isNone := by
  decide

theorem mem_undefinedOpcodes (b : Byte) : b ∈ undefinedOpcodes ↔ opcodeTable b = none := by
  rw [undefinedOpcodes_eq_filter, List.mem_filter, Option.isNone_iff_eq_none, and_iff_right (mem_allBytes b)]

/-- Settles O20: LOOKUP fails on the first byte, before any other is read; `U` is the table's empty slots in order. -/
theorem undefinedOpcodesNeverDecode : Obligations.UndefinedOpcodesNeverDecode :=
  ⟨fun _ _ hT _ => ⟨decodeWith_of_unmapped hT, readsWith_of_none (decodeWith_of_unmapped hT)⟩,
    fun b => (mem_undefinedOpcodes b).symm, rfl, undefinedOpcodes_eq_filter ▸ allBytes_nodup.filter _⟩

theorem mem_entriesOfMode {b : Byte} {op : Operation} {m : AddressingMode} (h : opcodeTable b = some (op, m)) :
    (b, op) ∈ entriesOfMode m :=
  List.mem_filterMap.2 ⟨b, mem_allBytes b, by simp only [h, if_true]⟩

/-- The column pattern of R103: no opcode has both low bits set. -/
theorem opcodeTable_of_low_bits : ∀ b : Byte, b.toNat % 4 = 3 → opcodeTable b = none := by decide

/-- Settles O30: by reading the 256 slots. -/
theorem defaultTableByMode : Obligations.DefaultTableByMode := by
  refine ⟨?_, ?_, ?_, ?_, ?_, ?_, ?_, ?_, ?_, ?_, ?_, ?_, ?_, ?_, ?_, ?_, ?_, opcodeTable_of_low_bits⟩
  all_goals decide

/-! ### The formatter's shapes (R120 to R132) -/

theorem upperHexDigits_getElem? {n : Nat} (h : n < 16) : upperHexDigits[n]? = some (hexDigit n) := by
  rw [hexDigit, List.getD_eq_getElem _ _ h]
  exact List.getElem?_eq_getElem h

theorem hex2_digits (v : Byte) :
    (hex2 v)[0]? = upperHexDigits[v.toNat / 16]? ∧ (hex2 v)[1]? = upperHexDigits[v.toNat % 16]? := by
  have hv := v.isLt
  rw [upperHexDigits_getElem? (by omega), upperHexDigits_getElem? (by omega)]
  exact ⟨rfl, rfl⟩

theorem hex4_digits (v : Word) :
    (hex4 v)[0]? = upperHexDigits[v.toNat / 4096]? ∧ (hex4 v)[1]? = upperHexDigits[v.toNat / 256 % 16]? ∧
    (hex4 v)[2]? = upperHexDigits[v.toNat / 16 % 16]? ∧ (hex4 v)[3]? = upperHexDigits[v.toNat % 16]? := by
  have hv := v.isLt
  rw [upperHexDigits_getElem? (by omega), upperHexDigits_getElem? (by omega), upperHexDigits_getElem? (by omega),
    upperHexDigits_getElem? (by omega)]
  exact ⟨rfl, rfl, rfl, rfl⟩

theorem renderOperand_relative_toInt (v : Byte) : renderOperand (.relative v.toInt) = ['$'] ++ hex2 v := by
  rw [renderOperand, ← sint8_eq_toInt, byteOf_sint8]
  rfl

/-- Settles O34: a branch's text shows the byte its offset was read from; the other shapes are the formatter's cases. -/
theorem renderingShapes : Obligations.RenderingShapes :=
  ⟨fun v => ⟨hex2_length v, hex2_digits v⟩, fun v => ⟨hex4_length v, hex4_digits v⟩, rfl, rfl,
    fun _ => ⟨rfl, rfl, rfl, rfl⟩,
    fun v => ⟨rfl, rfl, rfl, renderOperand_relative_toInt v, rfl, rfl, rfl⟩, rfl, rfl, fun _ _ => rfl,
    fun _ => render_of_ne_implied⟩

/-- The branches have no form of the zero page. -/
theorem relative_zeroPage_disjoint :
    ∀ e ∈ entriesOfMode .relative, ∀ e' ∈ entriesOfMode .zeroPage, e.2 ≠ e'.2 := by decide

/-- Settles O35: the formatter has one case for the forms of each width, and the table's Relative and ZeroPage entries
share no mnemonic. -/
theorem renderingLosesTheMode : Obligations.RenderingLosesTheMode := by
  refine ⟨fun _ _ _ => ⟨rfl, rfl⟩, fun _ _ _ => ⟨rfl, rfl⟩, ?_⟩
  rintro ⟨op, b, b', hrel, hzp⟩
  exact relative_zeroPage_disjoint _ (mem_entriesOfMode hrel) _ (mem_entriesOfMode hzp) rfl

end Sys2Proof

/-! SUPPORT and PROOFS of the family 40_decode_operations: the laws of the decode operation for every table (R151 to R156),
the walk step, its stops and its refusals (R160 to R163), whole walks (R164, R165), and the completion of every instruction
(R161, files 41 to 46). -/

namespace Sys2Proof

open Machine

/-! ### The first bytes of a window decide its decode (R151, R153) -/

/-- Bytes from the mode's size on play no part, whether the window is long enough to decode or not. -/
theorem decodeWith_take {T : OpcodeTable} {b : Byte} {rest : List Byte} {op : Operation} {m : AddressingMode} {n : Nat}
    (hT : T b = some (op, m)) (hn : m.size ≤ n) : decodeWith T ((b :: rest).take n) = decodeWith T (b :: rest) := by
  obtain ⟨n, rfl⟩ : ∃ n', n = n' + 1 := ⟨n - 1, by have := size_pos m; omega⟩
  have hlen : ((b :: rest).take (n + 1)).length = min (n + 1) (b :: rest).length := List.length_take
  have hagree : ∀ k < m.size, ((b :: rest).take (n + 1))[k]? = (b :: rest)[k]? := fun k hk =>
    List.getElem?_take_of_lt (hk.trans_le hn)
  rw [List.take_succ_cons] at hlen hagree ⊢
  rcases Nat.lt_or_ge (b :: rest).length m.size with hlt | hge
  · rw [decodeWith_of_short hT hlt, decodeWith_of_short hT (by omega)]
  · obtain ⟨i, _, hi, htri⟩ := decodeWith_of_entry hT hge
    obtain ⟨j, _, hj, htrj⟩ := decodeWith_of_entry hT (rest := rest.take n) (by omega)
    rw [hi, hj, InstructionOf.eq_of_triple (htrj.trans (extract_congr hagree ▸ htri.symm))]

theorem size_eq_one_two_or_three (m : AddressingMode) : m.size = 1 ∨ m.size = 2 ∨ m.size = 3 := by
  have hpos := size_pos m
  have hle := size_le_three m
  omega

/-- Settles O19: three bytes are enough for every mode, and the operand's bytes are among the two zeros. -/
theorem paddedDefinedOpcodesDecode : Obligations.PaddedDefinedOpcodesDecode := by
  intro T b op m hT
  obtain ⟨i, _, hi, htri⟩ := decodeWith_of_entry (rest := [0#8, 0#8]) hT (size_le_three m)
  refine ⟨by rw [hi, Option.map_some, htri], size_eq_one_two_or_three m, fun x hx => ?_⟩
  rw [extract_bytes] at hx
  simpa [byteAt] using List.mem_of_mem_take hx

/-- Settles O21: BOUNDS compares with the mode's size, and no step looks past it. -/
theorem truncationAndFirstBytesLaw : Obligations.TruncationAndFirstBytesLaw := by
  refine ⟨fun T b rest op m hT => ⟨decodeWith_of_short hT, fun hl => ?_⟩, fun T w => (decodeWith_take_three T w).symm⟩
  obtain ⟨i, _, hi, _⟩ := decodeWith_of_entry hT hl
  exact ⟨(decodeWith_take hT le_rfl).symm, by rw [hi, Option.isSome_some]⟩

/-! ### What a result says of its window (R154, R155) -/

/-- The table entry a result came from. -/
theorem entry_of_decode {T : OpcodeTable} {b : Byte} {rest : List Byte} {i : InstructionOf T}
    (h : decodeWith T (b :: rest) = some i) : T b = some (i.operation, i.operand.mode) := by
  obtain ⟨_, _, op, m, hw, hT, _, hi⟩ := decodeWith_some h
  cases hw
  rw [hi, extract_mode, hT]

/-- An Instruction with its payload in range decodes from its opcode byte and its operand's bytes. -/
theorem decodeWith_operand_bytes {T : OpcodeTable} {b : Byte} {i : InstructionOf T}
    (hb : T b = some (i.operation, i.operand.mode)) (hwf : i.operand.wf = true) :
    decodeWith T (b :: i.operand.bytes) = some i := by
  have hl : i.operand.mode.size ≤ (b :: i.operand.bytes).length := by
    rw [List.length_cons, operand_bytes_length, AddressingMode.size, Nat.add_comm]
  obtain ⟨j, _, hj, htri⟩ := decodeWith_of_entry hb hl
  have hex := extract_operand_bytes hwf b []
  rw [List.append_nil] at hex
  rw [hex, ← i.sizeIsModes] at htri
  exact hj.trans (congrArg some (InstructionOf.eq_of_triple htri))

/-- Settles O22: a decode's entry is that of its first byte; an Instruction carries its size and entry in its type. -/
theorem sizeAndTagLaws : Obligations.SizeAndTagLaws := by
  refine ⟨fun T w i h => ?_, fun T i => ⟨fun hi => ?_, ?_, i.sizeIsModes, i.tagIsEntrys, fun hwf => ?_⟩⟩
  · obtain ⟨b, rest, _, _, rfl, _⟩ := decodeWith_some h
    obtain ⟨hpos, hle, hlen⟩ := decodeWith_size h
    exact ⟨⟨b, rest, rfl, entry_of_decode h⟩, i.sizeIsModes, hpos, hle, hlen, tableMade_of_decode h⟩
  · have hsize := i.sizeIsModes
    rw [hi] at hsize
    exact absurd hsize (by decide)
  · rw [i.sizeIsModes]
    exact size_eq_one_two_or_three _
  · obtain ⟨b, hb⟩ := i.tagIsEntrys
    exact ⟨_, decodeWith_operand_bytes hb hwf⟩

/-- EXTRACT loses no byte it reads, so opcode and operand give the bytes back. -/
theorem take_size_of_decode {T : OpcodeTable} {b : Byte} {rest : List Byte} {i : InstructionOf T}
    (h : decodeWith T (b :: rest) = some i) : (b :: rest).take i.size = b :: i.operand.bytes := by
  obtain ⟨_, _, op, m, hw, _, hl, hi⟩ := decodeWith_some h
  cases hw
  rw [List.length_cons, AddressingMode.size] at hl
  rw [hi, AddressingMode.size, extract_bytes, take_byteAt (width_le_two m) (by omega), Nat.add_comm,
    List.take_succ_cons]

/-- Settles O23: one result has one entry, whose byte the default table holds once, so both windows start with the bytes
rebuilt from it. -/
theorem resultDeterminesTheBytes : Obligations.ResultDeterminesTheBytes := by
  refine ⟨fun T b rest i h => take_size_of_decode h, ?_⟩
  rintro w w' i _ h h' hne rfl
  obtain ⟨b, rest, _, _, rfl, _⟩ := decodeWith_some h
  obtain ⟨b', rest', _, _, rfl, _⟩ := decodeWith_some h'
  obtain rfl : b = b' := opcodeTable_injective (entry_of_decode h) (entry_of_decode h')
  have heq := (take_size_of_decode h).trans (take_size_of_decode h').symm
  exact hne.elim (absurd heq) (absurd heq)

/-! ### The ports (R32, R156) -/

theorem lanes_ofWindow : ∀ w : List Byte, (PortIn.ofWindow w).lanes = w.take 3
  | [] | [_] | [_, _] => rfl
  | b0 :: b1 :: b2 :: rest => by
    have hmin : min (b0 :: b1 :: b2 :: rest).length Config.windowLanes = 3 := Nat.min_eq_right (Nat.le_add_left 3 _)
    rw [PortIn.ofWindow, hmin]
    rfl

theorem lanes_length (p : PortIn) : p.lanes.length = p.avail.toNat := by
  have hlt := p.avail.isLt
  rw [PortIn.lanes, List.length_take]
  exact Nat.min_eq_left (by simp only [List.length_cons, List.length_nil]; omega)

theorem lanes_eq_nil {p : PortIn} (h : p.avail = 0#2) : p.lanes = [] :=
  List.eq_nil_of_length_eq_zero ((lanes_length p).trans (congrArg BitVec.toNat h))

theorem lanes_eq_cons {p : PortIn} (h : p.avail ≠ 0#2) : ∃ rest, p.lanes = p.win0 :: rest := by
  have hpos : p.avail.toNat ≠ 0 := fun hz => h (BitVec.eq_of_toNat_eq hz)
  exact ⟨_, List.take_cons (Nat.pos_of_ne_zero hpos)⟩

section Lanes

variable {T : OpcodeTable} {p q : PortIn} {n : Nat}

/-- The first `n` valid lanes are the valid ones among the first `n`. -/
theorem lanes_take (p : PortIn) (n : Nat) :
    p.lanes.take n = ([p.win0, p.win1, p.win2].take n).take p.avail.toNat := by
  rw [List.take_take, Nat.min_comm, ← List.take_take]
  rfl

theorem lanes_take_congr (havail : q.avail = p.avail)
    (hlanes : [q.win0, q.win1, q.win2].take n = [p.win0, p.win1, p.win2].take n) :
    q.lanes.take n = p.lanes.take n := by
  rw [lanes_take, lanes_take, havail, hlanes]

/-- Lanes from `n` on do not matter when `avail` is at most `n`. -/
theorem ifdOutputsWith_congr_of_avail_le (h : p.avail.toNat ≤ n) (havail : q.avail = p.avail)
    (hlanes : [q.win0, q.win1, q.win2].take n = [p.win0, p.win1, p.win2].take n) :
    ifdOutputsWith T q = ifdOutputsWith T p := by
  have heq := lanes_take_congr havail hlanes
  rw [List.take_of_length_le (by rwa [lanes_length, havail]), List.take_of_length_le (by rwa [lanes_length])] at heq
  rw [ifdOutputsWith, heq, ifdOutputsWith]

theorem decodeWith_lanes_take {op : Operation} {m : AddressingMode} (hT : T p.win0 = some (op, m)) (hn : m.size ≤ n) :
    decodeWith T (p.lanes.take n) = decodeWith T p.lanes := by
  by_cases h : p.avail = 0#2
  · rw [lanes_eq_nil h, List.take_nil]
  · obtain ⟨rest, hrest⟩ := lanes_eq_cons h
    rw [hrest, decodeWith_take hT hn]

/-- Lanes from `n` on do not matter when the mode's size is at most `n`. -/
theorem ifdOutputsWith_congr_of_size_le {op : Operation} {m : AddressingMode} (hT : T p.win0 = some (op, m))
    (hn : m.size ≤ n) (hwin : q.win0 = p.win0) (havail : q.avail = p.avail)
    (hlanes : [q.win0, q.win1, q.win2].take n = [p.win0, p.win1, p.win2].take n) :
    ifdOutputsWith T q = ifdOutputsWith T p := by
  rw [ifdOutputsWith, ← decodeWith_lanes_take (hwin ▸ hT) hn, lanes_take_congr havail hlanes,
    decodeWith_lanes_take hT hn, ifdOutputsWith]

end Lanes

theorem valid_eq_zero_iff {T : OpcodeTable} (r : Option (InstructionOf T)) : (packPorts r).valid = 0#1 ↔ r = none := by
  cases r with
  | none => exact iff_of_true rfl rfl
  | some i => exact iff_of_false (by simp [packPorts]) (by simp)

theorem decodeWith_cons_eq_none_iff {T : OpcodeTable} {b : Byte} {rest : List Byte} :
    decodeWith T (b :: rest) = none ↔
      T b = none ∨ ∃ op m, T b = some (op, m) ∧ (b :: rest).length < m.size := by
  refine ⟨fun h => ?_, fun h => ?_⟩
  · cases hT : T b with
    | none => exact .inl rfl
    | some e =>
      refine .inr ⟨e.1, e.2, rfl, Nat.lt_of_not_le fun hl => ?_⟩
      obtain ⟨i, _, hi, _⟩ := decodeWith_of_entry hT hl
      rw [h] at hi
      cases hi
  · rcases h with hT | ⟨op, m, hT, hl⟩
    · exact decodeWith_of_unmapped hT
    · exact decodeWith_of_short hT hl

theorem ifdOutputsWith_valid_eq_zero_iff (T : OpcodeTable) (p : PortIn) : (ifdOutputsWith T p).valid = 0#1 ↔
    p.avail = 0#2 ∨ T p.win0 = none ∨ ∃ op m, T p.win0 = some (op, m) ∧ p.avail.toNat < m.size := by
  rw [ifdOutputsWith, valid_eq_zero_iff]
  by_cases h : p.avail = 0#2
  · rw [lanes_eq_nil h]
    exact iff_of_true rfl (.inl h)
  · obtain ⟨rest, hrest⟩ := lanes_eq_cons h
    rw [or_iff_right h, hrest, decodeWith_cons_eq_none_iff, ← hrest, lanes_length]

/-- Settles O38: the lanes are the first three bytes of the window presented; a lane that neither `avail` nor the mode's
size reaches is not read. -/
theorem portsPackTheDecode : Obligations.PortsPackTheDecode := by
  refine ⟨fun _ _ => rfl, fun T w => ?_, ifdOutputsWith_valid_eq_zero_iff, fun T p x y z =>
    ⟨fun h => ?_, fun h => ?_, fun h => ?_, fun op m hT hw => ?_, fun op m hT hw => ?_⟩⟩
  · rw [ifdOutputsWith, lanes_ofWindow, decodeWith_take_three]
  · exact ifdOutputsWith_congr_of_avail_le (congrArg BitVec.toNat h).le rfl rfl
  · exact ifdOutputsWith_congr_of_avail_le h rfl rfl
  · exact ifdOutputsWith_congr_of_avail_le h rfl rfl
  · have h1 : m.size ≤ 1 := by rw [AddressingMode.size, hw]
    exact ifdOutputsWith_congr_of_size_le hT h1 rfl rfl rfl
  · have h2 : m.size ≤ 2 := Nat.add_le_add_left hw 1
    exact ifdOutputsWith_congr_of_size_le hT h2 rfl rfl rfl

/-! ### The walk step, its stops and its refusals (R160 to R163) -/

theorem step_of_bufferTooLong {s : State} (h : ¬ s.len ≤ 2 ^ s.offw - 1) : step s = .refused .bufferTooLong := by
  have hlong : maxLen s.offw < s.len := Nat.lt_of_not_le h
  simp only [step, fetch, hlong, if_true]

theorem step_of_walkStopped {s : State} (hl : s.len ≤ 2 ^ s.offw - 1) (h : s.status ≠ .running) :
    step s = .refused .walkStopped := by
  have hfits : ¬ maxLen s.offw < s.len := Nat.not_lt_of_le hl
  cases hs : s.status with
  | running => exact absurd hs h
  | stoppedExhausted | stoppedAbsent => simp only [step, fetch, hfits, if_false, hs]

/-- A ready state's step answers a next state: a stop, or what it decoded recorded. -/
theorem exists_step_of_ready {s : State} (hr : Ready s) : ∃ t, step s = .next t := by
  rcases step_of_ready hr.1 hr.2 with ⟨_, hs⟩ | ⟨_, _, hs⟩ | ⟨i, _, _, hs⟩ <;> exact ⟨_, hs⟩

/-- Settles O10: each refusal has its condition, and where neither holds the state is ready. -/
theorem stepExistsExactlyWhenReady : Obligations.StepExistsExactlyWhenReady := fun _ =>
  ⟨step_of_bufferTooLong, step_of_walkStopped, exists_step_of_ready, fun ⟨_, h⟩ => ready_of_step h⟩

theorem step_eq_exec {s : State} {i : Instr} (hr : Ready s) (hd : decode (window s) = some i.instruction) :
    step s = exec i s := (step_of_decode hr hd).trans (exec_eq_emit i s).symm

/-- Settles O4: the instruction decoded stands for the window's decode. -/
theorem stepRunsDecodedInstruction : Obligations.StepRunsDecodedInstruction := fun _ _ hr hi =>
  step_eq_exec hr (decodeInstr_ok hi)

theorem decode_of_standsAt {s : State} {i : Instr} (hwf : i.wf = true) (h : StandsAt s (encode i)) :
    decode (window s) = some i.instruction := by
  obtain ⟨rest, hrest⟩ := h
  rw [← hrest]
  exact decode_encode_append hwf rest

/-- Settles O5: by decode of encode. -/
theorem stepRunsTheEncodedInstruction : Obligations.StepRunsTheEncodedInstruction := fun _ _ hr hwf h =>
  step_eq_exec hr (decode_of_standsAt hwf h)

/-- Settles O7: the step records the decode, which ends within the buffer. -/
theorem successfulStepAdvancesBySize : Obligations.SuccessfulStepAdvancesBySize := by
  intro s i hr hd
  have hsize : i.size = 1 ∨ i.size = 2 ∨ i.size = 3 := i.sizeIsModes ▸ size_eq_one_two_or_three _
  exact ⟨emit i s, step_of_decode hr hd, rfl, hsize, rfl, hr.1, rfl, decode_window_end hd,
    window_drop s (emit i s) i.size rfl rfl rfl⟩

/-- Before the end the window starts with the buffer's byte at `off`. -/
theorem window_eq_cons {s : State} (h : s.off < s.len) : ∃ rest, window s = readMem s.mem s.off :: rest := by
  obtain ⟨n, hn⟩ : ∃ n, s.len - s.off = n + 1 := ⟨s.len - s.off - 1, by omega⟩
  refine ⟨bytesFrom s.mem (s.off + 1) n, ?_⟩
  rw [window, suffixAt, hn, bytesFrom]

/-- Settles O8: the two causes are the two ways in which a window with a first byte does not decode. -/
theorem absenceStopsTheWalk : Obligations.AbsenceStopsTheWalk := by
  refine ⟨fun s hr hlt hd => ⟨_, step_of_absent hr hlt hd, rfl, rfl, rfl, sameBuffer_stop _ s⟩,
    fun s _ hlt hT => ?_, fun s op m _ hlt hT hshort => ?_⟩
  · obtain ⟨rest, hw⟩ := window_eq_cons hlt
    rw [hw]
    exact decodeWith_of_unmapped hT
  · obtain ⟨rest, hw⟩ := window_eq_cons hlt
    rw [← window_length, hw] at hshort
    rw [hw]
    exact decodeWith_of_short hT hshort

/-- Settles O9: the end of the buffer is tested before decoding; a step that answers a next state was taken Running. -/
theorem exhaustionStopsTheWalk : Obligations.ExhaustionStopsTheWalk := by
  refine ⟨fun s hr hx => ⟨_, step_of_exhausted hr hx, rfl, rfl, rfl, sameBuffer_stop _ s⟩, fun s => ?_, fun _ => rfl,
    fun s t hs h => ?_⟩
  · have hr : Ready (hostLoad [] s) := ⟨rfl, Nat.zero_le _⟩
    exact ⟨_, step_of_exhausted hr le_rfl, rfl, rfl, rfl⟩
  · rw [(ready_of_step h).1] at hs
    exact hs.elim Status.noConfusion Status.noConfusion

/-! ### The machine's step is the WALK step (R160) -/

/-- Where FSEQ is Running there is a WALK step. -/
theorem status_ne_running_of_walkStep {T : OpcodeTable} {buf : List Byte} {r : Fseq T}
    (h : walkStepWith T buf r = none) : r.status ≠ .running := by
  intro hr
  rcases walkStepWith_cases T buf r hr with ⟨_, hs⟩ | ⟨_, _, hs⟩ | ⟨i, _, _, _, hs⟩ <;> simp [hs] at h

theorem running_of_walkStep {T : OpcodeTable} {buf : List Byte} {r r' : Fseq T}
    (h : walkStepWith T buf r = some r') : r.status = .running := by
  by_contra hr
  rw [walkStepWith_stopped T buf r hr] at h
  cases h

theorem step_of_walkStep {s : State} {r : Fseq opcodeTable} (hl : s.len ≤ 2 ^ s.offw - 1)
    (h : walkStepWith opcodeTable s.buffer s.registers = some r) : step s = .next (s.withRegisters r) := by
  have hr : Ready s := ⟨running_of_walkStep h, hl⟩
  rcases walkStepWith_cases opcodeTable s.buffer s.registers hr.1 with ⟨hx, hs⟩ | ⟨hlt, hd, hs⟩ | ⟨i, _, hd, _, hs⟩ <;>
    cases hs.symm.trans h
  · exact step_of_exhausted hr (by simpa using hx)
  · rw [registers_off, buffer_drop] at hd
    exact step_of_absent hr (by simpa using hlt) hd
  · rw [registers_off, buffer_drop] at hd
    exact step_of_decode hr hd

/-- Settles O6: the three branches of the pseudocode are the three things a ready state's step can do. -/
theorem stepIsTheWalkPseudocode : Obligations.StepIsTheWalkPseudocode := by
  refine fun s => ⟨fun hl => ?_, step_of_bufferTooLong⟩
  split
  next r h => exact step_of_walkStep hl h
  next h => exact step_of_walkStopped hl (status_ne_running_of_walkStep h)

/-! ### Whole walks (R164) -/

section Walks

variable {T : OpcodeTable} {buf : List Byte} {n : Nat}

theorem walkWith_succ_of_some {r r' : Fseq T} (h : walkStepWith T buf r = some r') :
    walkWith T buf (n + 1) r = walkWith T buf n r' := by simp only [walkWith, h]

theorem walkWith_of_stopped {r : Fseq T} (h : r.status ≠ .running) : walkWith T buf n r = r := by
  cases n with
  | zero => rfl
  | succ n => simp only [walkWith, walkStepWith_stopped T buf r h]

/-- Where a walk can stop: at the end of the buffer, or at an offset that does not decode (R37, R164). -/
def StoppedAtCause (T : OpcodeTable) (buf : List Byte) (r : Fseq T) : Prop :=
  r.status = .stoppedExhausted ∧ r.off = buf.length ∨
    r.status = .stoppedAbsent ∧ r.off < buf.length ∧ decodeWith T (buf.drop r.off) = none

theorem StoppedAtCause.status_ne_running {r : Fseq T} (h : StoppedAtCause T buf r) : r.status ≠ .running := by
  rcases h with ⟨hs, _⟩ | ⟨hs, _⟩ <;> simp [hs]

/-- One more step than bytes remain ends a walk, since each step that does not stop it passes a byte or more; pairs are
only ever added. -/
theorem walkWith_stops (n : Nat) : ∀ r : Fseq T, r.status = .running → r.off ≤ buf.length → buf.length - r.off < n →
    StoppedAtCause T buf (walkWith T buf n r) ∧ r.trace <+: (walkWith T buf n r).trace := by
  induction n with
  | zero => exact fun _ _ _ hn => absurd hn (Nat.not_lt_zero _)
  | succ n ih =>
    intro r hr hoff hn
    rcases walkStepWith_cases T buf r hr with ⟨hx, hs⟩ | ⟨hlt, hd, hs⟩ | ⟨i, hlt, _, hend, hs⟩ <;>
      rw [walkWith_succ_of_some hs]
    · rw [walkWith_of_stopped (by simp)]
      exact ⟨.inl ⟨rfl, Nat.le_antisymm hoff hx⟩, List.prefix_rfl⟩
    · rw [walkWith_of_stopped (by simp)]
      exact ⟨.inr ⟨rfl, hlt, hd⟩, List.prefix_rfl⟩
    · have hpos := i.size_range.1
      have hfewer : buf.length - (r.off + i.size) < n := by omega
      obtain ⟨hstop, htrace⟩ := ih { r with trace := r.trace ++ [(r.off, i)], off := r.off + i.size } hr hend hfewer
      exact ⟨hstop, (List.prefix_append _ _).trans htrace⟩

end Walks

/-- Settles O17: `L + 1` is more steps than bytes remain, and a stopped walk has no step. -/
theorem walkTerminatesForEveryTable : Obligations.WalkTerminatesForEveryTable := by
  rintro T buf r _ hr hoff rfl
  have hn : buf.length - r.off < buf.length + 1 := by omega
  obtain ⟨hstop, htrace⟩ := walkWith_stops _ r hr hoff hn
  exact ⟨walkStepWith_stopped T buf _ hstop.status_ne_running, htrace, hstop⟩

theorem run_succ_of_step {s t : State} {k : Nat} (h : step s = .next t) : core.run (k + 1) s = core.run k t := by
  have hstep : core.step s = .next t := h
  simp only [Host.Core.run, hstep]

/-- The machine's run keeps step with the walk over registers, and ends early where that does. -/
theorem exists_run_eq_walkWith (n : Nat) : ∀ s : State, s.len ≤ 2 ^ s.offw - 1 →
    ∃ k ≤ n, core.run k s = .next (s.withRegisters (walkWith opcodeTable s.buffer n s.registers)) := by
  induction n with
  | zero => exact fun s _ => ⟨0, le_rfl, rfl⟩
  | succ n ih =>
    intro s hl
    cases hs : walkStepWith opcodeTable s.buffer s.registers with
    | none =>
      rw [walkWith_of_stopped (status_ne_running_of_walkStep hs)]
      exact ⟨0, Nat.zero_le _, rfl⟩
    | some r =>
      obtain ⟨k, hk, hrun⟩ := ih (s.withRegisters r) hl
      rw [walkWith_succ_of_some hs]
      exact ⟨k + 1, Nat.succ_le_succ hk, (run_succ_of_step (step_of_walkStep hl hs)).trans hrun⟩

/-- Settles O16: the walk over registers stops, and the machine's run keeps step with it. -/
theorem walkTerminates : Obligations.WalkTerminates := by
  intro s hr hoff
  obtain ⟨k, hk, hrun⟩ := exists_run_eq_walkWith (s.len - s.off + 1) s hr.2
  obtain ⟨hstop, _⟩ := walkWith_stops (T := opcodeTable) (buf := s.buffer) (s.len - s.off + 1) s.registers hr.1
    (by simpa using hoff) (by simp)
  refine ⟨k, _, hk, by omega, hrun, hstop.status_ne_running, ?_⟩
  rw [StoppedAtCause, buffer_length] at hstop
  rw [← buffer_drop]
  exact hstop

/-! ### The linear sweep (R165) -/

theorem readMem_writeBytes_of_lt {a a' : Nat} : ∀ (bs : List Byte) (m : Mem), a' < a →
    readMem (writeBytes m a bs) a' = readMem m a'
  | [], _, _ => rfl
  | b :: rest, m, h => by
    rw [writeBytes, readMem_writeBytes_of_lt rest _ (Nat.lt_succ_of_lt h), readMem_writeMem_other m a a' b h.ne]

/-- Bytes placed in a canonical buffer are read back. -/
theorem bytesFrom_writeBytes : ∀ (bs : List Byte) (m : Mem) (a : Nat), memWf m = true →
    bytesFrom (writeBytes m a bs) a bs.length = bs
  | [], _, _, _ => rfl
  | b :: rest, m, a, h => by
    rw [writeBytes, List.length_cons, bytesFrom, bytesFrom_writeBytes rest _ _ (memWf_writeMem m a b h),
      readMem_writeBytes_of_lt rest _ (Nat.lt_succ_self a), readMem_writeMem_same m a b 0 h]

theorem buffer_hostLoad (bs : List Byte) (s : State) : (hostLoad bs s).buffer = bs := bytesFrom_writeBytes bs [] 0 rfl

section Sweep

variable {T : OpcodeTable}

theorem sweepWith_succ_of_absent {n a : Nat} {w : List Byte} (hw : w ≠ []) (hd : decodeWith T w = none) :
    sweepWith T (n + 1) a w = ([], a, .stoppedAbsent) := by
  cases w with
  | nil => exact absurd rfl hw
  | cons b rest => simp only [sweepWith, hd]

theorem sweepWith_succ_of_decode {n a : Nat} {w : List Byte} {i : InstructionOf T} (hd : decodeWith T w = some i) :
    sweepWith T (n + 1) a w = ((a, i) :: (sweepWith T n (a + i.size) (w.drop i.size)).1,
      (sweepWith T n (a + i.size) (w.drop i.size)).2) := by
  cases w with
  | nil => cases hd
  | cons b rest => simp only [sweepWith, hd]

/-- A walk adds to its trace, and ends where, the sweep of the bytes from its offset on does. -/
theorem walkWith_eq_sweepWith {buf : List Byte} (n : Nat) : ∀ r : Fseq T, r.status = .running →
    (walkWith T buf n r).trace = r.trace ++ (sweepWith T n r.off (buf.drop r.off)).1 ∧
      ((walkWith T buf n r).off, (walkWith T buf n r).status) = (sweepWith T n r.off (buf.drop r.off)).2 := by
  induction n with
  | zero => exact fun r hr => ⟨(List.append_nil _).symm, congrArg (Prod.mk r.off) hr⟩
  | succ n ih =>
    intro r hr
    rcases walkStepWith_cases T buf r hr with ⟨hx, hs⟩ | ⟨hlt, hd, hs⟩ | ⟨i, hlt, hd, _, hs⟩ <;>
      rw [walkWith_succ_of_some hs]
    · rw [walkWith_of_stopped (by simp), List.drop_of_length_le hx]
      exact ⟨(List.append_nil _).symm, rfl⟩
    · rw [walkWith_of_stopped (by simp), sweepWith_succ_of_absent (mt List.drop_eq_nil_iff.1 hlt.not_ge) hd]
      exact ⟨(List.append_nil _).symm, rfl⟩
    · obtain ⟨htrace, hend⟩ := ih { r with trace := r.trace ++ [(r.off, i)], off := r.off + i.size } hr
      rw [sweepWith_succ_of_decode hd, List.drop_drop]
      exact ⟨htrace.trans (List.append_assoc _ _ _), hend⟩

end Sweep

/-- Settles O18: the loaded buffer is the bytes given; the machine's run keeps step with the walk over registers, and that
with the sweep. -/
theorem walkComputesTheSweep : Obligations.WalkComputesTheSweep := by
  intro bs s hl
  obtain ⟨k, hk, hrun⟩ := exists_run_eq_walkWith (bs.length + 1) (hostLoad bs s) hl
  rw [buffer_hostLoad] at hrun
  obtain ⟨hstop, _⟩ := walkWith_stops (T := opcodeTable) (buf := bs) (bs.length + 1) (hostLoad bs s).registers rfl
    (Nat.zero_le _) (Nat.lt_succ_self _)
  obtain ⟨htrace, hend⟩ := walkWith_eq_sweepWith (buf := bs) (bs.length + 1) (hostLoad bs s).registers rfl
  exact ⟨k, _, hk, hrun, hstop.status_ne_running, Prod.ext htrace hend⟩

/-! ### Every instruction completes (R161, files 41 to 46) -/

theorem recordsAs_triple (i : Instr) : RecordsAs i i.triple.operation i.triple.operand i.triple.size :=
  ⟨i.instruction, rfl, exec_eq_emit i⟩

/-- An instruction completes at its opcode byte followed by the bytes of its operand. Where the payload is no byte or one as
it stands, both conditions hold by computation. -/
theorem CompletesAs.of_bytes {i : Instr} {bs : List Byte} (hwf : i.triple.operand.wf = true := by rfl)
    (hbytes : i.triple.operand.bytes = bs := by rfl) :
    CompletesAs i (i.opcode :: bs) i.triple.operation i.triple.operand i.triple.size := by
  subst hbytes
  rw [← instr_wf_eq_operand_wf] at hwf
  exact ⟨i.instruction, rfl, exec_eq_emit i, fun s hr hw => step_of_decode hr (decode_of_standsAt hwf hw)⟩

theorem bytes_bothBytes (h l : Byte) : [highByte (bothBytes h l), lowByte (bothBytes h l)] = [h, l] := by
  rw [← joinBytes_eq_bothBytes, highByte_joinBytes, lowByte_joinBytes]

/-- The forms whose payload is two operand bytes joined. -/
theorem CompletesAs.word {i : Instr} (h l : Byte) (hwf : i.triple.operand.wf = true := by rfl)
    (hbytes : i.triple.operand.bytes = [highByte (bothBytes h l), lowByte (bothBytes h l)] := by rfl) :
    CompletesAs i [i.opcode, h, l] i.triple.operation i.triple.operand i.triple.size :=
  .of_bytes hwf (hbytes.trans (bytes_bothBytes h l))

/-- The branches, whose payload is a byte's signed reading. -/
theorem CompletesAs.branch {i : Instr} (v : Byte) (ho : i.triple.operand = .relative v.toInt := by rfl) :
    CompletesAs i [i.opcode, v] i.triple.operation i.triple.operand i.triple.size := by
  rw [← sint8_eq_toInt] at ho
  refine .of_bytes ?_ ?_
  · exact ho ▸ extract_wf .relative [v, v]
  · rw [ho, Operand.bytes, byteOf_sint8]

/-- Settles O42: the rows mnemonic by mnemonic, each with one operand byte or two. -/
theorem loadStoreInstructionsComplete : Obligations.LoadStoreInstructionsComplete := fun _ h l =>
  ⟨.of_bytes, .of_bytes, .of_bytes, .word h l, .word h l, .word h l, .of_bytes, .of_bytes,
    .of_bytes, .of_bytes, .of_bytes, .word h l, .word h l,
    .of_bytes, .of_bytes, .of_bytes, .word h l, .word h l,
    .of_bytes, .of_bytes, .word h l, .word h l, .word h l, .of_bytes, .of_bytes,
    .of_bytes, .of_bytes, .word h l,
    .of_bytes, .of_bytes, .word h l⟩

/-- Settles O44: every row is its opcode byte alone. -/
theorem transferStackInstructionsComplete : Obligations.TransferStackInstructionsComplete :=
  ⟨.of_bytes, .of_bytes, .of_bytes, .of_bytes, .of_bytes, .of_bytes, .of_bytes, .of_bytes, .of_bytes, .of_bytes⟩

/-- Settles O46: the rows mnemonic by mnemonic, each with one operand byte or two. -/
theorem arithLogicInstructionsComplete : Obligations.ArithLogicInstructionsComplete := fun _ h l =>
  ⟨.of_bytes, .of_bytes, .of_bytes, .word h l, .word h l, .word h l, .of_bytes, .of_bytes,
    .of_bytes, .of_bytes, .of_bytes, .word h l, .word h l, .word h l, .of_bytes, .of_bytes,
    .of_bytes, .of_bytes, .of_bytes, .word h l, .word h l, .word h l, .of_bytes, .of_bytes,
    .of_bytes, .of_bytes, .of_bytes, .word h l, .word h l, .word h l, .of_bytes, .of_bytes,
    .of_bytes, .of_bytes, .of_bytes, .word h l, .word h l, .word h l, .of_bytes, .of_bytes,
    .of_bytes, .of_bytes, .of_bytes, .word h l, .word h l, .word h l, .of_bytes, .of_bytes,
    .of_bytes, .of_bytes, .word h l,
    .of_bytes, .of_bytes, .word h l,
    .of_bytes, .word h l⟩

/-- Settles O48: the rows mnemonic by mnemonic, each with no operand byte, one or two; the last four have none. -/
theorem shiftIncDecInstructionsComplete : Obligations.ShiftIncDecInstructionsComplete := fun _ h l =>
  ⟨.of_bytes, .of_bytes, .word h l, .word h l, .of_bytes,
    .of_bytes, .of_bytes, .word h l, .word h l, .of_bytes,
    .of_bytes, .of_bytes, .word h l, .word h l, .of_bytes,
    .of_bytes, .of_bytes, .word h l, .word h l, .of_bytes,
    .of_bytes, .of_bytes, .word h l, .word h l,
    .of_bytes, .of_bytes, .word h l, .word h l,
    .of_bytes, .of_bytes, .of_bytes, .of_bytes⟩

/-- Settles O50: the offset is the reading of one byte; `exec` records any offset. -/
theorem branchInstructionsComplete : Obligations.BranchInstructionsComplete :=
  ⟨fun v => ⟨.branch v, .branch v, .branch v, .branch v, .branch v, .branch v, .branch v, .branch v⟩,
    fun _ => ⟨recordsAs_triple _, recordsAs_triple _, recordsAs_triple _, recordsAs_triple _, recordsAs_triple _,
      recordsAs_triple _, recordsAs_triple _, recordsAs_triple _⟩⟩

/-- Settles O52: the jumps and JSR have two bytes of operand, the others none. -/
theorem jumpSystemInstructionsComplete : Obligations.JumpSystemInstructionsComplete := fun h l =>
  ⟨.word h l, .word h l, .word h l, .of_bytes, .of_bytes, .of_bytes, .of_bytes⟩

/-- Settles O54: every row is its opcode byte alone. -/
theorem flagMnemonicsInstructionsComplete : Obligations.FlagMnemonicsInstructionsComplete :=
  ⟨.of_bytes, .of_bytes, .of_bytes, .of_bytes, .of_bytes, .of_bytes, .of_bytes⟩

end Sys2Proof

/-! SUPPORT and PROOFS of the family 41_load_store: the text of a decoded row, the rule of a row from its table entry, the
rule of a mnemonic from the default table (files 41 to 46), and the load and store mnemonics (R200 to R205). -/

namespace Sys2Proof

open Machine

/-! ### The text of a row -/

theorem bothBytes_toNat (h l : Byte) : (bothBytes h l).toNat = 256 * h.toNat + l.toNat := by
  rw [← joinBytes_eq_bothBytes, joinBytes_toNat]

/-- The four digits of a 16-bit operand are those of its high byte, then those of its low byte. -/
theorem hex4_bothBytes (h l : Byte) : hex4 (bothBytes h l) = hex2 h ++ hex2 l := by
  have hl := l.isLt
  have h3 : (256 * h.toNat + l.toNat) / 4096 = h.toNat / 16 := by omega
  have h2 : (256 * h.toNat + l.toNat) / 256 % 16 = h.toNat % 16 := by omega
  have h1 : (256 * h.toNat + l.toNat) / 16 % 16 = l.toNat / 16 := by omega
  have h0 : (256 * h.toNat + l.toNat) % 16 = l.toNat % 16 := by omega
  rw [hex4, bothBytes_toNat, h3, h2, h1, h0]
  rfl

/-- The operand of a row renders as the row's text, digits of the bytes as they stand in the window. -/
theorem render_rowOperand (op : Operation) (m : AddressingMode) (w1 w2 : Byte) (n : Nat) :
    render ⟨op, rowOperand m w1 w2, n⟩ = rowText (mnemonicText op) m w1 w2 := by
  cases m with
  | absolute | absoluteX | absoluteY | indirect =>
    simp [render, rowOperand, renderOperand, rowText, hex4_bothBytes]
  | relative => simp [render, rowOperand, rowText, renderOperand_relative_toInt]
  | implied => rfl
  | accumulator | immediate | indexedIndirect | indirectIndexed | zeroPage | zeroPageX | zeroPageY =>
    simp [render, rowOperand, renderOperand, rowText]

/-! ### The rule of a mnemonic from the table -/

/-- An entry of the default table has the rule of its row. -/
theorem rowRule_of_entry {op : Operation} {b : Byte} {m : AddressingMode} (hT : opcodeTable b = some (op, m)) :
    RowRule op (mnemonicText op) b m m.size := by
  intro w hw
  obtain ⟨rest, rfl⟩ := List.head?_eq_some_iff.1 hw
  refine ⟨decodeWith_of_short hT, fun hl => ?_⟩
  obtain ⟨i, _, hd, htri⟩ := decodeWith_of_entry hT hl
  rw [extract_eq_rowOperand] at htri
  refine ⟨i, htri, hd, ?_, fun s hr hwin => ?_⟩
  · rw [htri, render_rowOperand]
  · rw [← hwin] at hd
    exact step_of_decode hr hd

/-- The rule of a mnemonic, from three readings of the default table: each row is an entry with its mode's size, each entry
of the Operation is a row, and the bytes named as undefined have empty slots. For rows written out all three
hold by computation. -/
theorem MnemonicRule.of_table {op : Operation} {rows : List (Byte × AddressingMode × Nat)} {undefinedBytes : List Byte}
    (hrow : ∀ r ∈ rows, opcodeTable r.1 = some (op, r.2.1) ∧ r.2.2 = r.2.1.size := by decide)
    (hentry : ∀ b, ∀ e ∈ opcodeTable b, e.1 = op → (b, e.2, e.2.size) ∈ rows := by decide)
    (hundef : ∀ b ∈ undefinedBytes, opcodeTable b = none := by decide) :
    MnemonicRule op op.id (mnemonicText op) rows undefinedBytes := by
  refine ⟨rfl, rfl, fun b m => ⟨fun hT => ⟨m.size, hentry b _ hT rfl⟩, fun ⟨_, hr⟩ => (hrow _ hr).1⟩,
    fun b m size hr => ?_, hundef⟩
  obtain ⟨hT, hsize⟩ : opcodeTable b = some (op, m) ∧ size = m.size := hrow _ hr
  exact hsize ▸ rowRule_of_entry hT

/-! ### Loads and stores (R200 to R205) -/

/-- Settles O41: each mnemonic's rows are read off the default table slot by slot. -/
theorem loadStoreDecodeRules : Obligations.LoadStoreDecodeRules :=
  ⟨.of_table, .of_table, .of_table, .of_table, .of_table, .of_table⟩

end Sys2Proof

/-! PROOFS of the family 42_transfer_stack: the register-transfer and stack mnemonics (R206 to R215). -/

namespace Sys2Proof

/-! ### Register transfers and the stack (R206 to R215) -/

/-- Settles O43: each mnemonic's one row is read off the default table slot by slot. -/
theorem transferStackDecodeRules : Obligations.TransferStackDecodeRules :=
  ⟨.of_table, .of_table, .of_table, .of_table, .of_table, .of_table, .of_table, .of_table, .of_table, .of_table⟩

end Sys2Proof

/-! PROOFS of the family 43_arith_logic: the arithmetic, logic, compare and bit-test mnemonics (R216 to R224). -/

namespace Sys2Proof

/-! ### Arithmetic, logic, compare and bit test (R216 to R224) -/

/-- Settles O45: each mnemonic's rows are read off the default table slot by slot. -/
theorem arithLogicDecodeRules : Obligations.ArithLogicDecodeRules :=
  ⟨.of_table, .of_table, .of_table, .of_table, .of_table, .of_table, .of_table, .of_table, .of_table⟩

end Sys2Proof

/-! PROOFS of the family 44_shift_incdec: the shift, rotate, increment and decrement mnemonics (R225 to R234). -/

namespace Sys2Proof

/-! ### Shifts, rotates, increments and decrements (R225 to R234) -/

/-- Settles O47: each mnemonic's rows are read off the default table slot by slot. -/
theorem shiftIncDecDecodeRules : Obligations.ShiftIncDecDecodeRules :=
  ⟨.of_table, .of_table, .of_table, .of_table, .of_table, .of_table, .of_table, .of_table, .of_table, .of_table⟩

end Sys2Proof

/-! PROOFS of the family 45_branch: the branch mnemonics (R235 to R242). -/

namespace Sys2Proof

/-! ### Branches (R235 to R242) -/

/-- Settles O49: each mnemonic's one row is read off the default table slot by slot; that its offset is the signed reading of
the operand byte is in the rule of any entry. -/
theorem branchDecodeRules : Obligations.BranchDecodeRules :=
  ⟨.of_table, .of_table, .of_table, .of_table, .of_table, .of_table, .of_table, .of_table⟩

end Sys2Proof

/-! PROOFS of the family 46_jump_system_flags: the jump, subroutine, interrupt and no-operation mnemonics (R243 to R248) and
the flag mnemonics (R249 to R255). -/

namespace Sys2Proof

/-! ### Jumps, subroutines, interrupts and no-operation (R243 to R248) -/

/-- Settles O51: each mnemonic's rows are read off the default table slot by slot, and so is the empty slot 0x7C that the rule
of JMP names. -/
theorem jumpSystemDecodeRules : Obligations.JumpSystemDecodeRules :=
  ⟨.of_table, .of_table, .of_table, .of_table, .of_table, .of_table⟩

/-! ### Flags (R249 to R255) -/

/-- Settles O53: each mnemonic's one row is read off the default table slot by slot. -/
theorem flagMnemonicsDecodeRules : Obligations.FlagMnemonicsDecodeRules :=
  ⟨.of_table, .of_table, .of_table, .of_table, .of_table, .of_table, .of_table⟩

end Sys2Proof

/-! PROOFS of the families 60_exceptions and 70_reset_and_hazards: the two conditions under which a decode has no result (R300
to R303) and the sample words beside them, reset and the load of a buffer (R43, R340 to R342). -/

namespace Sys2Proof

open Machine

/-! ### Absence (R300 to R303) -/

/-- With a populated slot absence is truncation: fewer bytes than the size of the entry's mode (R302). -/
theorem decodeWith_eq_none_iff_of_entry {T : OpcodeTable} {b : Byte} {rest : List Byte} {op : Operation}
    {m : AddressingMode} (hT : T b = some (op, m)) :
    decodeWith T (b :: rest) = none ↔ (b :: rest).length < m.size := by
  simp [decodeWith_cons_eq_none_iff, hT]

/-- Settles O24: the empty window is a truncated one; of any other the slot of the first byte decides, and by size BOUNDS. -/
theorem exactlyTwoFailureConditions : Obligations.ExactlyTwoFailureConditions := by
  refine ⟨fun T w => ?_, fun T b rest op m hT => ?_⟩
  · cases w with
    | nil => exact ⟨fun _ => .inr (.inl rfl), fun _ => rfl⟩
    | cons b rest => simp [decodeWith_cons_eq_none_iff]
  · rw [Ne, decodeWith_eq_none_iff_of_entry hT, List.length_cons]
    omega

/-! ### Sample words (files 41 to 46) -/

/-- A well-formed instruction is what its own bytes decode to. For a word written out both conditions hold by computation. -/
theorem decodeInstr_of_encode {w : List Byte} {i : Instr} (hwf : i.wf = true := by decide)
    (hw : encode i = w := by decide) : decodeInstr w = .ok i := by
  rw [← hw, ← List.append_nil (encode i)]
  exact decodeOfEncode i [] hwf

/-- Settles O33: each word that decodes is the encoding of its instruction; the last three fail at LOOKUP, at BOUNDS and at
the test of the empty window. -/
theorem sampleWordsDecode : Obligations.SampleWordsDecode :=
  ⟨decodeInstr_of_encode, decodeInstr_of_encode, decodeInstr_of_encode, decodeInstr_of_encode, decodeInstr_of_encode,
    decodeInstr_of_encode, decodeInstr_of_encode, decodeInstr_of_encode, decodeInstr_of_encode, decodeInstr_of_encode,
    decodeInstr_of_encode, decodeInstr_of_encode, decodeInstr_of_encode, decodeInstr_of_encode, decodeInstr_of_encode,
    rfl, rfl, rfl⟩

/-! ### Reset and the load (R340 to R342) -/

/-- What reset leaves of a state is its buffer and its build, so a walk in progress is lost (R342). -/
theorem hostReset_congr {s t : State} (hmem : t.mem = s.mem) (hlen : t.len = s.len) (hoffw : t.offw = s.offw) :
    hostReset t = hostReset s := by
  rw [hostReset, hostReset, hmem, hlen, hoffw]

/-- Settles O1: reset writes the three registers with the values that `State.reset` has. -/
theorem resetActsOnRegistersOnly : Obligations.ResetActsOnRegistersOnly := fun s =>
  ⟨hostReset_off s, hostReset_status s, hostReset_trace s, hostReset_mem s, hostReset_len s, hostReset_offw s,
    rfl, rfl, rfl, fun _ => hostReset_congr⟩

/-- The window at offset 0 is the whole buffer. -/
theorem window_hostLoad (bs : List Byte) (s : State) : window (hostLoad bs s) = bs := buffer_hostLoad bs s

/-- Settles O2: the window reads back the bytes placed, and placing them in an empty buffer keeps its form and stays within
their length. -/
theorem loadedBufferIsTheWindow : Obligations.LoadedBufferIsTheWindow := fun bs s =>
  ⟨window_hostLoad bs s, hostLoad_off s bs, hostLoad_status s bs, hostLoad_trace s bs, hostLoad_len s bs,
    memWf_writeBytes bs [] 0 rfl, memWithin_writeBytes bs [] 0 (Nat.zero_add _).le rfl⟩

end Sys2Proof
